-- ==== Sys2Proof/Word.lean ====
section
/-! DEFINITION. The word types of the XP-8 CHIP-8 core (spec 00_scope.md R6 to R8): every value is unsigned, bit 0 is the
least significant bit. -/

namespace Sys2Proof

/-- An 8-bit unsigned value: a general register, a timer, a byte of memory, the immediate `nn` (R6, R12, R51). -/
abbrev Byte := BitVec 8

/-- A 16-bit unsigned value: `pc`, `I`, a stack entry, an instruction (R6, R7). -/
abbrev Word := BitVec 16

/-- A 4-bit field of an instruction: the row count `n` of a sprite (R51). -/
abbrev Nibble := BitVec 4

/-- The 4-bit number of a general register; every one of its sixteen values names a register (R12). -/
abbrev Reg := BitVec 4

/-- The 4-bit number of a key of the keypad (R22, R130). -/
abbrev Key := BitVec 4

/-- The 12-bit immediate `nnn` (R51). -/
abbrev Addr := BitVec 12

/-- VF, register 15, the flag register (R14). -/
def vf : Reg := 15

end Sys2Proof
end

