-- ==== Sys2Proof/Syntax.lean ====
section
/-! DEFINITION. The instructions: one constructor per row of the opcode map (spec 30_encoding.md R55), in its order. -/

namespace Sys2Proof

/-- An instruction with its decoded operands (R51, R52). The width of an operand's type is the width of its field, so every
term is a well-formed instruction (WellFormed.lean). -/
inductive Instr where
  /-- 00E0, `CLS`: clear the screen (R103). -/
  | cls
  /-- 00EE, `RET`: return from a subroutine (R73). -/
  | ret
  /-- 1nnn, `JP nnn`: jump (R74). -/
  | jp (nnn : Addr)
  /-- 2nnn, `CALL nnn`: call a subroutine (R75). -/
  | call (nnn : Addr)
  /-- 3xnn, `SE Vx, nn`: skip if Vx = nn (R76). -/
  | seImm (x : Reg) (nn : Byte)
  /-- 4xnn, `SNE Vx, nn`: skip if Vx ≠ nn (R77). -/
  | sneImm (x : Reg) (nn : Byte)
  /-- 5xy0, `SE Vx, Vy`: skip if Vx = Vy (R78). -/
  | seReg (x : Reg) (y : Reg)
  /-- 6xnn, `LD Vx, nn`: load an immediate (R84). -/
  | ldImm (x : Reg) (nn : Byte)
  /-- 7xnn, `ADD Vx, nn`: add an immediate, no flag (R85). -/
  | addImm (x : Reg) (nn : Byte)
  /-- 8xy0, `LD Vx, Vy`: copy a register (R86). -/
  | ldReg (x : Reg) (y : Reg)
  /-- 8xy1, `OR Vx, Vy`: bitwise or (R87). -/
  | orReg (x : Reg) (y : Reg)
  /-- 8xy2, `AND Vx, Vy`: bitwise and (R88). -/
  | andReg (x : Reg) (y : Reg)
  /-- 8xy3, `XOR Vx, Vy`: bitwise exclusive or (R89). -/
  | xorReg (x : Reg) (y : Reg)
  /-- 8xy4, `ADD Vx, Vy`: add with carry out (R90). -/
  | addReg (x : Reg) (y : Reg)
  /-- 8xy5, `SUB Vx, Vy`: subtract Vy from Vx (R91). -/
  | subReg (x : Reg) (y : Reg)
  /-- 8xy6, `SHR Vx, Vy`: shift Vy right by one into Vx (R92). -/
  | shr (x : Reg) (y : Reg)
  /-- 8xy7, `SUBN Vx, Vy`: subtract Vx from Vy (R93). -/
  | subn (x : Reg) (y : Reg)
  /-- 8xyE, `SHL Vx, Vy`: shift Vy left by one into Vx (R94). -/
  | shl (x : Reg) (y : Reg)
  /-- 9xy0, `SNE Vx, Vy`: skip if Vx ≠ Vy (R79). -/
  | sneReg (x : Reg) (y : Reg)
  /-- Annn, `LD I, nnn`: set the index register (R97). -/
  | ldI (nnn : Addr)
  /-- Bnnn, `JP V0, nnn`: jump to nnn plus V0 (R80). -/
  | jpV0 (nnn : Addr)
  /-- Cxnn, `RND Vx, nn`: random byte and nn (R95). -/
  | rnd (x : Reg) (nn : Byte)
  /-- Dxyn, `DRW Vx, Vy, n`: draw an n-row sprite (R107). -/
  | drw (x : Reg) (y : Reg) (n : Nibble)
  /-- Ex9E, `SKP Vx`: skip if a key is down, consuming it (R109). -/
  | skp (x : Reg)
  /-- ExA1, `SKNP Vx`: skip if a key is up (R110). -/
  | sknp (x : Reg)
  /-- Fx07, `LD Vx, DT`: read the delay timer (R111). -/
  | ldFromDt (x : Reg)
  /-- Fx0A, `LD Vx, K`: wait for a key (R112). -/
  | ldKey (x : Reg)
  /-- Fx15, `LD DT, Vx`: write the delay timer (R113). -/
  | ldDt (x : Reg)
  /-- Fx18, `LD ST, Vx`: write the sound timer (R114). -/
  | ldSt (x : Reg)
  /-- Fx1E, `ADD I, Vx`: add to the index register (R98). -/
  | addI (x : Reg)
  /-- Fx29, `LD F, Vx`: point I at a font glyph (R99). -/
  | ldFont (x : Reg)
  /-- Fx33, `LD B, Vx`: store three decimal digits (R100). -/
  | ldBcd (x : Reg)
  /-- Fx55, `LD [I], Vx`: store V0 to Vx (R101). -/
  | store (x : Reg)
  /-- Fx65, `LD Vx, [I]`: load V0 to Vx (R102). -/
  | load (x : Reg)
  deriving DecidableEq, Repr

/-- The assembler spelling of an instruction's row (R55, R59); only the 16-bit word has a meaning (decision D25). -/
def Instr.mnemonic : Instr → String
  | .cls => "CLS"
  | .ret => "RET"
  | .jp _ => "JP nnn"
  | .call _ => "CALL nnn"
  | .seImm _ _ => "SE Vx, nn"
  | .sneImm _ _ => "SNE Vx, nn"
  | .seReg _ _ => "SE Vx, Vy"
  | .ldImm _ _ => "LD Vx, nn"
  | .addImm _ _ => "ADD Vx, nn"
  | .ldReg _ _ => "LD Vx, Vy"
  | .orReg _ _ => "OR Vx, Vy"
  | .andReg _ _ => "AND Vx, Vy"
  | .xorReg _ _ => "XOR Vx, Vy"
  | .addReg _ _ => "ADD Vx, Vy"
  | .subReg _ _ => "SUB Vx, Vy"
  | .shr _ _ => "SHR Vx, Vy"
  | .subn _ _ => "SUBN Vx, Vy"
  | .shl _ _ => "SHL Vx, Vy"
  | .sneReg _ _ => "SNE Vx, Vy"
  | .ldI _ => "LD I, nnn"
  | .jpV0 _ => "JP V0, nnn"
  | .rnd _ _ => "RND Vx, nn"
  | .drw _ _ _ => "DRW Vx, Vy, n"
  | .skp _ => "SKP Vx"
  | .sknp _ => "SKNP Vx"
  | .ldFromDt _ => "LD Vx, DT"
  | .ldKey _ => "LD Vx, K"
  | .ldDt _ => "LD DT, Vx"
  | .ldSt _ => "LD ST, Vx"
  | .addI _ => "ADD I, Vx"
  | .ldFont _ => "LD F, Vx"
  | .ldBcd _ => "LD B, Vx"
  | .store _ => "LD [I], Vx"
  | .load _ => "LD Vx, [I]"

end Sys2Proof
end

