-- ==== Sys2Proof/Decode.lean ====
section
/-! DEFINITION. The instruction word: fields, decoder, encoder and the rows of the opcode map (spec 30_encoding.md). -/

namespace Sys2Proof

/-! ## Fields (R51) -/

/-- `op[15:12]`, the family. -/
def topNibble (op : Word) : Nibble := op.extractLsb' 12 4

/-- `op[11:8]`. -/
def fieldX (op : Word) : Reg := op.extractLsb' 8 4

/-- `op[7:4]`. -/
def fieldY (op : Word) : Reg := op.extractLsb' 4 4

/-- `op[3:0]`. -/
def fieldN (op : Word) : Nibble := op.extractLsb' 0 4

/-- `op[7:0]`. -/
def fieldNN (op : Word) : Byte := op.extractLsb' 0 8

/-- `op[11:0]`. -/
def fieldNNN (op : Word) : Addr := op.extractLsb' 0 12

/-! ## Decoder (R54, R57) -/

/-- Why bytes are no instruction. -/
inductive DecodeError where
  /-- Fewer than two bytes were given to `decodeBytes`; a fetch always has two (R36, R50). -/
  | truncated
  /-- `Unknown`: the value matches no row of the opcode map (R57). -/
  | unknownOpcode (op : Word)
  deriving DecidableEq, Repr

/-- Family 0x0: only 0x00E0 and 0x00EE (R54). -/
def decodeSystem (op : Word) : Except DecodeError Instr :=
  match op with
  | 0x00E0#16 => .ok .cls
  | 0x00EE#16 => .ok .ret
  | _         => .error (.unknownOpcode op)

/-- Families 0x5 and 0x9: the low nibble must be 0 (R54). -/
def decodeLowZero (op : Word) (i : Instr) : Except DecodeError Instr :=
  match fieldN op with
  | 0x0#4 => .ok i
  | _     => .error (.unknownOpcode op)

/-- Family 0x8: the low nibble selects (R56). -/
def decodeAlu (op : Word) : Except DecodeError Instr :=
  let x := fieldX op
  let y := fieldY op
  match fieldN op with
  | 0x0#4 => .ok (.ldReg x y)
  | 0x1#4 => .ok (.orReg x y)
  | 0x2#4 => .ok (.andReg x y)
  | 0x3#4 => .ok (.xorReg x y)
  | 0x4#4 => .ok (.addReg x y)
  | 0x5#4 => .ok (.subReg x y)
  | 0x6#4 => .ok (.shr x y)
  | 0x7#4 => .ok (.subn x y)
  | 0xE#4 => .ok (.shl x y)
  | _     => .error (.unknownOpcode op)

/-- Family 0xE: the low byte selects (R56). -/
def decodeKey (op : Word) : Except DecodeError Instr :=
  match fieldNN op with
  | 0x9E#8 => .ok (.skp (fieldX op))
  | 0xA1#8 => .ok (.sknp (fieldX op))
  | _      => .error (.unknownOpcode op)

/-- Family 0xF: the low byte selects (R56). -/
def decodeMisc (op : Word) : Except DecodeError Instr :=
  let x := fieldX op
  match fieldNN op with
  | 0x07#8 => .ok (.ldFromDt x)
  | 0x0A#8 => .ok (.ldKey x)
  | 0x15#8 => .ok (.ldDt x)
  | 0x18#8 => .ok (.ldSt x)
  | 0x1E#8 => .ok (.addI x)
  | 0x29#8 => .ok (.ldFont x)
  | 0x33#8 => .ok (.ldBcd x)
  | 0x55#8 => .ok (.store x)
  | 0x65#8 => .ok (.load x)
  | _      => .error (.unknownOpcode op)

/-- `Decode(op)`: total on all 65536 values (R54); the value is reported where it is `Unknown` (R57). -/
def decode (op : Word) : Except DecodeError Instr :=
  match topNibble op with
  | 0x0#4 => decodeSystem op
  | 0x1#4 => .ok (.jp (fieldNNN op))
  | 0x2#4 => .ok (.call (fieldNNN op))
  | 0x3#4 => .ok (.seImm (fieldX op) (fieldNN op))
  | 0x4#4 => .ok (.sneImm (fieldX op) (fieldNN op))
  | 0x5#4 => decodeLowZero op (.seReg (fieldX op) (fieldY op))
  | 0x6#4 => .ok (.ldImm (fieldX op) (fieldNN op))
  | 0x7#4 => .ok (.addImm (fieldX op) (fieldNN op))
  | 0x8#4 => decodeAlu op
  | 0x9#4 => decodeLowZero op (.sneReg (fieldX op) (fieldY op))
  | 0xA#4 => .ok (.ldI (fieldNNN op))
  | 0xB#4 => .ok (.jpV0 (fieldNNN op))
  | 0xC#4 => .ok (.rnd (fieldX op) (fieldNN op))
  | 0xD#4 => .ok (.drw (fieldX op) (fieldY op) (fieldN op))
  | 0xE#4 => decodeKey op
  | _     => decodeMisc op

/-- Two bytes as an instruction word, the first in bits 15:8 (R36, R37). -/
def wordOfBytes (high low : Byte) : Word := high ++ low

/-- The instruction at the front of some bytes, and the bytes after it: always two bytes, high byte first (R50). -/
def decodeBytes : List Byte → Except DecodeError (Instr × List Byte)
  | high :: low :: rest =>
    match decode (wordOfBytes high low) with
    | .ok i    => .ok (i, rest)
    | .error e => .error e
  | _ => .error .truncated

/-! ## Encoder (R53, R55) -/

/-- Format XNN: family, x, nn. -/
def encodeXNN (family : Nibble) (x : Reg) (nn : Byte) : Word := family ++ x ++ nn

/-- Format A: family, nnn. -/
def encodeA (family : Nibble) (nnn : Addr) : Word := family ++ nnn

/-- Formats XY and XYN: family, x, y and the low nibble (a fixed selector or n). -/
def encodeXY (family : Nibble) (x y : Reg) (low : Nibble) : Word := family ++ x ++ y ++ low

/-- The word of an instruction. Format X is format XNN with a fixed low byte. -/
def encode : Instr → Word
  | .cls         => 0x00E0#16
  | .ret         => 0x00EE#16
  | .jp nnn      => encodeA 0x1#4 nnn
  | .call nnn    => encodeA 0x2#4 nnn
  | .seImm x nn  => encodeXNN 0x3#4 x nn
  | .sneImm x nn => encodeXNN 0x4#4 x nn
  | .seReg x y   => encodeXY 0x5#4 x y 0x0#4
  | .ldImm x nn  => encodeXNN 0x6#4 x nn
  | .addImm x nn => encodeXNN 0x7#4 x nn
  | .ldReg x y   => encodeXY 0x8#4 x y 0x0#4
  | .orReg x y   => encodeXY 0x8#4 x y 0x1#4
  | .andReg x y  => encodeXY 0x8#4 x y 0x2#4
  | .xorReg x y  => encodeXY 0x8#4 x y 0x3#4
  | .addReg x y  => encodeXY 0x8#4 x y 0x4#4
  | .subReg x y  => encodeXY 0x8#4 x y 0x5#4
  | .shr x y     => encodeXY 0x8#4 x y 0x6#4
  | .subn x y    => encodeXY 0x8#4 x y 0x7#4
  | .shl x y     => encodeXY 0x8#4 x y 0xE#4
  | .sneReg x y  => encodeXY 0x9#4 x y 0x0#4
  | .ldI nnn     => encodeA 0xA#4 nnn
  | .jpV0 nnn    => encodeA 0xB#4 nnn
  | .rnd x nn    => encodeXNN 0xC#4 x nn
  | .drw x y n   => encodeXY 0xD#4 x y n
  | .skp x       => encodeXNN 0xE#4 x 0x9E#8
  | .sknp x      => encodeXNN 0xE#4 x 0xA1#8
  | .ldFromDt x  => encodeXNN 0xF#4 x 0x07#8
  | .ldKey x     => encodeXNN 0xF#4 x 0x0A#8
  | .ldDt x      => encodeXNN 0xF#4 x 0x15#8
  | .ldSt x      => encodeXNN 0xF#4 x 0x18#8
  | .addI x      => encodeXNN 0xF#4 x 0x1E#8
  | .ldFont x    => encodeXNN 0xF#4 x 0x29#8
  | .ldBcd x     => encodeXNN 0xF#4 x 0x33#8
  | .store x     => encodeXNN 0xF#4 x 0x55#8
  | .load x      => encodeXNN 0xF#4 x 0x65#8

/-- The bytes of an instruction as memory holds them (R37, R50). -/
def encodeBytes (i : Instr) : List Byte := [(encode i).extractLsb' 8 8, (encode i).extractLsb' 0 8]

/-! ## The opcode map as data (R55) -/

/-- A row of the opcode map: an instruction word belongs to it when `op AND mask = bits` (R54). -/
structure Row where
  bits : Word
  mask : Word
  deriving DecidableEq, Repr

/-- `op AND mask = match` (R54). -/
def Row.has (r : Row) (op : Word) : Bool := (op &&& r.mask) == r.bits

/-- Rows 1 to 9 of R55. -/
def rowsControl : List Row :=
  [⟨0x00E0, 0xFFFF⟩, ⟨0x00EE, 0xFFFF⟩, ⟨0x1000, 0xF000⟩, ⟨0x2000, 0xF000⟩, ⟨0x3000, 0xF000⟩, ⟨0x4000, 0xF000⟩,
   ⟨0x5000, 0xF00F⟩, ⟨0x6000, 0xF000⟩, ⟨0x7000, 0xF000⟩]

/-- Rows 10 to 18 of R55. -/
def rowsAlu : List Row :=
  [⟨0x8000, 0xF00F⟩, ⟨0x8001, 0xF00F⟩, ⟨0x8002, 0xF00F⟩, ⟨0x8003, 0xF00F⟩, ⟨0x8004, 0xF00F⟩, ⟨0x8005, 0xF00F⟩,
   ⟨0x8006, 0xF00F⟩, ⟨0x8007, 0xF00F⟩, ⟨0x800E, 0xF00F⟩]

/-- Rows 19 to 25 of R55. -/
def rowsWide : List Row :=
  [⟨0x9000, 0xF00F⟩, ⟨0xA000, 0xF000⟩, ⟨0xB000, 0xF000⟩, ⟨0xC000, 0xF000⟩, ⟨0xD000, 0xF000⟩, ⟨0xE09E, 0xF0FF⟩,
   ⟨0xE0A1, 0xF0FF⟩]

/-- Rows 26 to 34 of R55. -/
def rowsMisc : List Row :=
  [⟨0xF007, 0xF0FF⟩, ⟨0xF00A, 0xF0FF⟩, ⟨0xF015, 0xF0FF⟩, ⟨0xF018, 0xF0FF⟩, ⟨0xF01E, 0xF0FF⟩, ⟨0xF029, 0xF0FF⟩,
   ⟨0xF033, 0xF0FF⟩, ⟨0xF055, 0xF0FF⟩, ⟨0xF065, 0xF0FF⟩]

/-- The whole opcode map, row 1 first. -/
def opcodeMap : List Row := rowsControl ++ rowsAlu ++ rowsWide ++ rowsMisc

/-- An instruction's index in `opcodeMap`: the row number of R55 less one. -/
def Instr.rowIndex : Instr → Nat
  | .cls        => 0
  | .ret        => 1
  | .jp _       => 2
  | .call _     => 3
  | .seImm _ _  => 4
  | .sneImm _ _ => 5
  | .seReg _ _  => 6
  | .ldImm _ _  => 7
  | .addImm _ _ => 8
  | .ldReg _ _  => 9
  | .orReg _ _  => 10
  | .andReg _ _ => 11
  | .xorReg _ _ => 12
  | .addReg _ _ => 13
  | .subReg _ _ => 14
  | .shr _ _    => 15
  | .subn _ _   => 16
  | .shl _ _    => 17
  | .sneReg _ _ => 18
  | .ldI _      => 19
  | .jpV0 _     => 20
  | .rnd _ _    => 21
  | .drw _ _ _  => 22
  | .skp _      => 23
  | .sknp _     => 24
  | .ldFromDt _ => 25
  | .ldKey _    => 26
  | .ldDt _     => 27
  | .ldSt _     => 28
  | .addI _     => 29
  | .ldFont _   => 30
  | .ldBcd _    => 31
  | .store _    => 32
  | .load _     => 33

/-! ## The table's numbering of bits -/

/-- The first `nbits` bits of an instruction as a word; those above are 0. An instruction is one 16-bit word, so the table's bit
numbers are the word's (R7, R50). -/
def tableWord (nbits w : Nat) : Word := BitVec.ofNat 16 (w % 2 ^ nbits)

/-- The bytes of a word as memory holds them, high byte at the lower address (R37). -/
def bytesOfWord (op : Word) : List Byte := [op.extractLsb' 8 8, op.extractLsb' 0 8]

/-- The instruction the decoder reads from an instruction whose bits, numbered as the opcode table numbers them, are `w`. -/
def decodeTableWord (nbits w : Nat) : Option Instr :=
  match decodeBytes (bytesOfWord (tableWord nbits w)) with
  | .ok (i, _) => some i
  | .error _   => none

end Sys2Proof
end

