-- ==== Sys2Proof/Config.lean ====
section
/-! DEFINITION. What is fixed for one core and is not state (spec 00_scope.md R6, 10_state.md R11), and the free values. -/

namespace Sys2Proof

/-- The two parameters of the core: where the program image goes and where the first step fetches (`LOAD_ADDR`, R6), and
the bytes of the built-in font (`FONT`, R43). `Sys2Proof.Config.standard` (Machine/Font.lean) has the spec's defaults. -/
structure Config where
  loadAddr : Nat
  font     : List Byte
  deriving DecidableEq, Repr

/-- `MEM_SIZE` (R6). -/
def Config.memSize : Nat := 4096

/-- `FONT_BASE`, where the font stands (R6). -/
def Config.fontBase : Nat := 0

/-- The default `LOAD_ADDR` (R6). -/
def Config.defaultLoadAddr : Nat := 0x200

/-- `LOAD_ADDR` of the lower-memory variant (R6, R137). -/
def Config.lowLoadAddr : Nat := 0x050

/-- `MAX_IMAGE`, the longest program image in bytes: 3584 or 4016 (R6). -/
def Config.maxImage (c : Config) : Nat := Config.memSize - c.loadAddr

/-- `TIMER_HZ`, the rate at which the environment issues timer ticks (R6, R127); no rule of the core depends on it. -/
def Config.timerHz : Nat := 60

/-- `STEP_HZ`, which the source leaves open (R6, R145); no rule of the core depends on it. -/
opaque Config.stepHz : Nat

/-- FREE VALUE. The random byte that the environment hands to the `k`-th step it issues on its own (R62: "a free input of the
step with no law"). It has no body: nothing can be proved about which byte it is (assumption 3). -/
opaque Config.randomByte : Nat → Byte

end Sys2Proof
end

