-- ==== Sys2Proof/Machine/Font.lean ====
section
/-! DEFINITION. The default font and the default configuration (spec 20_memory.md R43, 00_scope.md R6). -/

namespace Sys2Proof

/-- Glyphs 0 to 7, five rows each, top row first. Glyph 5 is the source's; the others are the conventional font (R43, PRESUMED,
assumption 6). -/
def glyphsLow : List Byte :=
  [0xF0, 0x90, 0x90, 0x90, 0xF0] ++ [0x20, 0x60, 0x20, 0x20, 0x70] ++
  [0xF0, 0x10, 0xF0, 0x80, 0xF0] ++ [0xF0, 0x10, 0xF0, 0x10, 0xF0] ++
  [0x90, 0x90, 0xF0, 0x10, 0x10] ++ [0xF0, 0x80, 0xF0, 0x10, 0xF0] ++
  [0xF0, 0x80, 0xF0, 0x90, 0xF0] ++ [0xF0, 0x10, 0x20, 0x40, 0x40]

/-- Glyphs 8 to F (R43, PRESUMED, assumption 6). -/
def glyphsHigh : List Byte :=
  [0xF0, 0x90, 0xF0, 0x90, 0xF0] ++ [0xF0, 0x90, 0xF0, 0x10, 0xF0] ++
  [0xF0, 0x90, 0xF0, 0x90, 0x90] ++ [0xE0, 0x90, 0xE0, 0x90, 0xE0] ++
  [0xF0, 0x80, 0x80, 0x80, 0xF0] ++ [0xE0, 0x90, 0x90, 0x90, 0xE0] ++
  [0xF0, 0x80, 0xF0, 0x80, 0xF0] ++ [0xF0, 0x80, 0xF0, 0x80, 0x80]

/-- The default configuration: `LOAD_ADDR` = 0x200 and the table of R43. -/
def Config.standard : Config := ⟨Config.defaultLoadAddr, glyphsLow ++ glyphsHigh⟩

/-- The lower-memory variant: `LOAD_ADDR` = 0x050 (R6, R137). -/
def Config.lower : Config := ⟨Config.lowLoadAddr, glyphsLow ++ glyphsHigh⟩

end Sys2Proof
end

