-- ==== Sys2Proof/Machine/State.lean ====
section
/-! DEFINITION. The state of the core (spec 10_state.md R11), the events that drive it and the output events (R61, R71), the
reasons a step can stop, and the state after reset (R31). -/

namespace Sys2Proof.Machine

/-- The framebuffer: 32 rows of 64 one-bit pixels, row 0 at the top, column 0 at the left (R21). -/
abbrev Framebuffer := Vector (Vector Bool 64) 32

/-- Memory: the bytes that differ from what reset leaves (`Memory.resetByte`), by rising address (R26, R32). -/
abbrev Memory := List Host.Cell

/-- STATUS (R24). -/
inductive Status where
  /-- The next step executes the instruction at `pc`. -/
  | run
  /-- Suspended in Fx0A at `pc`; the next step looks at the keypad again. -/
  | wait
  /-- A fatal fault has happened; only `Reset` changes the state. -/
  | halt
  deriving DecidableEq, Repr

/-- The error kinds, for CAUSE and the `Fault` output event (R25, R115, R116). CAUSE holds only `none`, `stackOverflow` and
`stackUnderflow`. -/
inductive Cause where
  | none
  | unknownOpcode
  | stackOverflow
  | stackUnderflow
  | imageTooLarge
  | imageUnreadable
  deriving DecidableEq, Repr

/-- The numeric code of an error kind (R116). -/
def Cause.code : Cause → Nat
  | .none            => 0
  | .unknownOpcode   => 1
  | .stackOverflow   => 2
  | .stackUnderflow  => 3
  | .imageTooLarge   => 4
  | .imageUnreadable => 5

/-- The events by which the environment drives the core (R29, R61). -/
inductive Event where
  | reset
  | load (image : List Byte)
  | step (rnd : Byte)
  | timerTick
  | keyPress (k : Key)
  | keyRelease (k : Key)
  deriving DecidableEq, Repr

/-- The output events (R71). -/
inductive Output where
  | unknownOpcode (pc op : Word)
  | fault (cause : Cause) (pc op : Word)
  | soundTrigger
  deriving DecidableEq, Repr

/-- Why the machine stops with no next state. No instruction's meaning answers one: the two fatal faults of the instruction set
are states (STATUS = HALT, R119). -/
inductive Fault where
  /-- Raised by `step` when STATUS = HALT and the environment has no event pending: no step is enabled (R69). Safe. -/
  | halted
  /-- Raised by the `Load` event for an image that does not fit: no successor in which the core runs (R140). Safe. -/
  | imageTooLarge
  deriving DecidableEq, Repr

/-- Why the model gives no answer. -/
inductive Refusal where
  /-- An instruction without a meaning; no arm of `exec` answers it. Safe. -/
  | notModelled (mnemonic : String)
  /-- A `Load` event after the first step or after another `Load`, which is outside the spec (R138, decision D27). Safe. -/
  | loadAfterBoot
  deriving DecidableEq, Repr

/-- The state: the record of R11, and after it the five fields of the model's own that hold what an event brings or takes away
(assumptions 2 to 5). -/
structure State where
  /-- V0 to VF (R12). -/
  v      : Vector Byte 16
  /-- The index register I (R15). -/
  i      : Word
  /-- The program counter (R16). -/
  pc     : Word
  /-- The stack pointer SP, 0 to 15 (R17, R18). -/
  sp     : Fin 16
  /-- The return-address stack (R17). -/
  stack  : Vector Word 16
  /-- The delay timer DT (R20). -/
  dt     : Byte
  /-- The sound timer ST (R20). -/
  st     : Byte
  /-- The framebuffer FB (R21). -/
  fb     : Framebuffer
  /-- The keypad KEY: true is an unconsumed press (R22). -/
  key    : Vector Bool 16
  /-- The draw flag DRAW (R23). -/
  draw   : Bool
  /-- STATUS (R24). -/
  status : Status
  /-- CAUSE (R25). -/
  cause  : Cause
  /-- MEM (R26). -/
  mem    : Memory
  /-- MODEL. The random byte input of the current step (R62). -/
  rnd      : Byte
  /-- MODEL. How many steps the environment has issued with a byte of its own choosing (indexes `Config.randomByte`). -/
  rndCount : Nat
  /-- MODEL. The boot sequence still allows the one `Load` (R29, R138). -/
  loadable : Bool
  /-- MODEL. The events the environment delivers next, soonest first; when there is none it issues a `Step` (R63). -/
  inputs   : List Event
  /-- MODEL. The output events emitted so far, oldest first (R71). -/
  outputs  : List Output
  deriving DecidableEq, Repr

/-- What a meaning, an event or a step answers. -/
abbrev Result := Host.Outcome State Fault Refusal

/-- The state after `Reset` with the default parameters (R31, R136). Memory lists nothing: every byte is what reset leaves. -/
def State.reset : State where
  v        := Vector.replicate 16 0
  i        := 0
  pc       := BitVec.ofNat 16 Config.defaultLoadAddr
  sp       := 0
  stack    := Vector.replicate 16 0
  dt       := 0
  st       := 0
  fb       := Vector.replicate 32 (Vector.replicate 64 false)
  key      := Vector.replicate 16 false
  draw     := false
  status   := .run
  cause    := .none
  mem      := []
  rnd      := 0
  rndCount := 0
  loadable := true
  inputs   := []
  outputs  := []

end Sys2Proof.Machine
end

