-- ==== Sys2Proof/Machine/Memory.lean ====
section
/-! DEFINITION. The memory: 4096 bytes in one address space, every address taken modulo 4096 (spec 20_memory.md). -/

namespace Sys2Proof.Machine

/-- `ea = a mod 4096` (R33). -/
def effAddr (a : Nat) : Nat := a % 4096

/-- What an address reads as until it is written: the font below 0x050, zero above it (R31, R42). -/
def Memory.resetByte (a : Nat) : Byte := Config.standard.font.getD a 0

/-- The byte an address of the list holds. -/
def Memory.lookup : Memory → Nat → Byte
  | [], a             => Memory.resetByte a
  | (k, b) :: rest, a => if k = a then b else Memory.lookup rest a

/-- The list with a byte in it, at its place in the rising order. -/
def Memory.insert : Memory → Nat → Byte → Memory
  | [], a, b             => [(a, b)]
  | (k, c) :: rest, a, b =>
    if a < k then (a, b) :: (k, c) :: rest
    else if a = k then (a, b) :: rest
    else (k, c) :: Memory.insert rest a b

/-- The list without an address. -/
def Memory.erase (m : Memory) (a : Nat) : Memory := m.filter fun e => decide (e.1 ≠ a)

/-- The list with one byte set: a byte equal to what reset leaves is not listed. -/
def Memory.update (m : Memory) (a : Nat) (b : Byte) : Memory :=
  if b = Memory.resetByte a then Memory.erase m a else Memory.insert m a b

/-- `MemRead(a, 1)` (R34). -/
def Memory.read (m : Memory) (a : Nat) : Byte := Memory.lookup m (effAddr a)

/-- `MemWrite(a, 1, v)` (R35). -/
def Memory.write (m : Memory) (a : Nat) (b : Byte) : Memory := Memory.update m (effAddr a) b

/-- Bytes written one after another at rising addresses (R40). -/
def Memory.writeBytes : Memory → Nat → List Byte → Memory
  | m, _, []        => m
  | m, a, b :: rest => Memory.writeBytes (Memory.write m a b) (a + 1) rest

/-- A list is canonical above a bound: addresses rise from the bound, lie below 4096, and no byte equals what reset leaves. -/
def Memory.wfFrom : Nat → Memory → Bool
  | _, []               => true
  | low, (k, b) :: rest =>
    decide (low ≤ k) && decide (k < 4096) && decide (b ≠ Memory.resetByte k) && Memory.wfFrom (k + 1) rest

/-- The canonical form of memory: equal memories are equal lists. -/
def Memory.wf (m : Memory) : Bool := Memory.wfFrom 0 m

/-- The memory that reset leaves under a configuration: its font at 0x000, zero elsewhere (R31). For `Config.standard` nothing
is listed. -/
def Memory.ofConfig (c : Config) : Memory := Memory.writeBytes [] Config.fontBase c.font

end Sys2Proof.Machine
end

