-- ==== Sys2Proof/Machine/Ops.lean ====
section
/-! DEFINITION. The operations over registers, `pc`, memory, stack, keypad and output that every meaning is written with; taking a
fatal fault and the return from it; the bookkeeping around a step (spec 00_scope.md R9, 40_cycle.md, 60_exceptions.md). -/

namespace Sys2Proof.Machine

/-! ## Registers (R12) -/

/-- `V[x]`. -/
def State.reg (s : State) (x : Reg) : Byte := s.v[x.toNat]'(x.isLt)

/-- `V[x] <- b`. -/
def State.setReg (s : State) (x : Reg) (b : Byte) : State := { s with v := s.v.set x.toNat b x.isLt }

/-! ## Outcome classes (R64, R66) -/

/-- `Next`: `pc + 2` modulo 65536. -/
def State.advance (s : State) : State := { s with pc := s.pc + 2 }

/-- `Skip(c)`: `pc + 4` if `c`, else `pc + 2`, modulo 65536 (R67). -/
def State.skipIf (s : State) (c : Bool) : State := { s with pc := s.pc + (if c then 4 else 2) }

/-- `Jump(t)`. -/
def State.jumpTo (s : State) (t : Word) : State := { s with pc := t }

/-! ## Memory (R34, R35) -/

/-- `MemRead(a, 1)`. -/
def State.readMem (s : State) (a : Nat) : Byte := s.mem.read a

/-- `MemWrite` of bytes one after another from `a`. -/
def State.writeMem (s : State) (a : Nat) (bs : List Byte) : State := { s with mem := s.mem.writeBytes a bs }

/-- `Fetch(pc)` (R36): the byte at `pc` is bits 15:8, the one at `pc + 1` bits 7:0. -/
def State.fetch (s : State) : Word := wordOfBytes (s.readMem s.pc.toNat) (s.readMem (s.pc.toNat + 1))

/-! ## Return-address stack (R17) -/

/-- `SP <- SP + 1`, then `STACK[SP] <- w`. The caller has checked SP ≠ 15. -/
def State.push (s : State) (w : Word) : State :=
  { s with sp := s.sp + 1, stack := s.stack.set (s.sp + 1).val w (s.sp + 1).isLt }

/-- `STACK[SP]`. -/
def State.top (s : State) : Word := s.stack[s.sp.val]'(s.sp.isLt)

/-- `SP <- SP - 1`; the entry keeps its value (R19). The caller has checked SP ≠ 0. -/
def State.drop (s : State) : State := { s with sp := s.sp - 1 }

/-! ## Keypad (R22) -/

/-- `KEY[k] = 1`. -/
def State.keyDown (s : State) (k : Key) : Bool := s.key[k.toNat]'(k.isLt)

/-- `KEY[k] <- b`. -/
def State.setKey (s : State) (k : Key) (b : Bool) : State := { s with key := s.key.set k.toNat b k.isLt }

/-- The least key that is down, if any (R112, decision D19). -/
def State.leastKeyDown (s : State) : Option Key :=
  ((List.range 16).map (BitVec.ofNat 4)).find? fun k => s.keyDown k

/-! ## Output events (R71) -/

/-- `emit E`. -/
def State.emit (s : State) (e : Output) : State := { s with outputs := s.outputs ++ [e] }

/-! ## Errors -/

/-- `raise F(pc, op)` (R119): STATUS becomes HALT, CAUSE the kind, `Fault` is emitted; `pc` still addresses the faulting
instruction, nothing is saved and no handler is entered (R122). -/
def State.raise (s : State) (c : Cause) (op : Word) : State :=
  { s with status := .halt, cause := c, outputs := s.outputs ++ [.fault c s.pc op] }

/-- `Reset`, which is also the only way out of HALT (R123, R136): every field of R31 to its reset value. What belongs to the
environment stays: its pending events, what it has been told, and its choice of random bytes. -/
def State.resetFor (s : State) (c : Config) : State :=
  { State.reset with
    pc       := BitVec.ofNat 16 c.loadAddr
    mem      := Memory.ofConfig c
    rnd      := s.rnd
    rndCount := s.rndCount
    inputs   := s.inputs
    outputs  := s.outputs }

/-- A step whose value decodes to `Unknown` (R68, R117): report it and go on at `pc + 2`. -/
def State.unknown (s : State) (op : Word) : State := (s.emit (.unknownOpcode s.pc op)).advance

/-! ## Around a step -/

/-- What a step does before its instruction executes: DRAW is cleared (R65), the random input is taken (R62), and no `Load` is
allowed any more (R138). -/
def State.beginStep (s : State) (r : Byte) : State := { s with draw := false, rnd := r, loadable := false }

/-- The state with a word's two bytes in memory where the next fetch reads (R36). -/
def State.placeWord (s : State) (op : Word) : State := s.writeMem s.pc.toNat (bytesOfWord op)

/-- The core running, if a fault had halted it. -/
def State.unhalt (s : State) : State :=
  match s.status with
  | .halt => { s with status := .run, cause := .none }
  | _     => s

end Sys2Proof.Machine
end

