-- ==== Sys2Proof/Machine/Flags.lean ====
section
/-! DEFINITION. The flag unit and the arithmetic under it (spec 42_alu.md R81, R82; 44_display.md R106). VF is the only flag (R14). -/

namespace Sys2Proof.Machine

/-- A flag as the byte VF receives. -/
def flagByte (c : Bool) : Byte := if c then 1 else 0

/-- The result to `V[x]`, then the flag to VF: with x = 0xF, VF ends holding the flag (R82). -/
def State.setResult (s : State) (x : Reg) (result : Byte) (flag : Bool) : State :=
  (s.setReg x result).setReg vf (flagByte flag)

/-- `(a + b) mod 256` (R90). -/
def addByte (a b : Byte) : Byte := BitVec.ofNat 8 (a.toNat + b.toNat)

/-- The carry out of bit 7: `a + b > 255` (R90). -/
def carryOut (a b : Byte) : Bool := decide (255 < a.toNat + b.toNat)

/-- `(a - b) mod 256` of the exact difference (R91). -/
def subByte (a b : Byte) : Byte := BitVec.ofInt 8 ((a.toNat : Int) - (b.toNat : Int))

/-- The flag of a subtraction `a - b`: `a > b`, strictly (R91, R93). -/
def greater (a b : Byte) : Bool := decide (b.toNat < a.toNat)

/-- One place right, bit 7 filled with 0 (R92). -/
def shiftRight (b : Byte) : Byte := b >>> 1

/-- The bit a right shift drops: bit 0 (R92). -/
def bitOutRight (b : Byte) : Bool := b.getLsbD 0

/-- One place left, bit 0 filled with 0 (R94). -/
def shiftLeft (b : Byte) : Byte := b <<< 1

/-- The bit a left shift drops: bit 7 (R94). -/
def bitOutLeft (b : Byte) : Bool := b.getLsbD 7

end Sys2Proof.Machine
end

