-- ==== Sys2Proof/Machine/Operands.lean ====
section
/-! DEFINITION. The operand forms (spec 30_encoding.md R52, 43_index_memory.md R96): registers, immediates, the address in I plus
an offset, the key a register names, the font glyph a register names. -/

namespace Sys2Proof.Machine

/-- `zext_16(nnn)`: a 12-bit immediate as it goes to `pc` or `I` (R52). -/
def zextAddr (nnn : Addr) : Word := nnn.setWidth 16

/-- `zext_16` of a byte (R80, R98). -/
def zextByte (b : Byte) : Word := b.setWidth 16

/-- The one data addressing mode: `I + k`, before the reduction modulo 4096 that the memory makes (R96). -/
def State.dataAddr (s : State) (k : Nat) : Nat := s.i.toNat + k

/-- The key a register names: its low nibble (R108). -/
def State.keyOf (s : State) (x : Reg) : Key := (s.reg x).extractLsb' 0 4

/-- The address of the font glyph a register names: `FONT_BASE + 5 × (Vx AND 0x0F)` (R99). -/
def State.glyphAddr (s : State) (x : Reg) : Word :=
  BitVec.ofNat 16 (Config.fontBase + 5 * (s.reg x &&& 0x0F).toNat)

/-- The registers V0 to Vx, in order (R101). -/
def State.block (s : State) (x : Reg) : List Byte :=
  (List.range (x.toNat + 1)).map fun k => s.reg (BitVec.ofNat 4 k)

/-- The `n` bytes of a sprite at I (R104). -/
def State.spriteBytes (s : State) (n : Nibble) : List Byte :=
  (List.range n.toNat).map fun j => s.readMem (s.dataAddr j)

/-- The hundreds, tens and ones of a byte, a byte each (R100). -/
def bcdDigits (b : Byte) : List Byte :=
  [BitVec.ofNat 8 (b.toNat / 100), BitVec.ofNat 8 (b.toNat / 10 % 10), BitVec.ofNat 8 (b.toNat % 10)]

end Sys2Proof.Machine
end

