-- ==== Sys2Proof/Machine/Alu.lean ====
section
/-! DEFINITION. Register loads, arithmetic, logic, shifts and the random byte (spec 42_alu.md). -/

namespace Sys2Proof.Machine

/-- 6xnn (R84). -/
def execLdImm (x : Reg) (nn : Byte) (s : State) : Result := .next (s.setReg x nn).advance

/-- 7xnn (R85): no flag. -/
def execAddImm (x : Reg) (nn : Byte) (s : State) : Result := .next (s.setReg x (addByte (s.reg x) nn)).advance

/-- 8xy0 (R86). -/
def execLdReg (x y : Reg) (s : State) : Result := .next (s.setReg x (s.reg y)).advance

/-- 8xy1 (R87): VF is not reset (R83). -/
def execOrReg (x y : Reg) (s : State) : Result := .next (s.setReg x (s.reg x ||| s.reg y)).advance

/-- 8xy2 (R88). -/
def execAndReg (x y : Reg) (s : State) : Result := .next (s.setReg x (s.reg x &&& s.reg y)).advance

/-- 8xy3 (R89). -/
def execXorReg (x y : Reg) (s : State) : Result := .next (s.setReg x (s.reg x ^^^ s.reg y)).advance

/-- 8xy4 (R90). -/
def execAddReg (x y : Reg) (s : State) : Result :=
  .next (s.setResult x (addByte (s.reg x) (s.reg y)) (carryOut (s.reg x) (s.reg y))).advance

/-- 8xy5 (R91). -/
def execSubReg (x y : Reg) (s : State) : Result :=
  .next (s.setResult x (subByte (s.reg x) (s.reg y)) (greater (s.reg x) (s.reg y))).advance

/-- 8xy6 (R92): the source is Vy. -/
def execShr (x y : Reg) (s : State) : Result :=
  .next (s.setResult x (shiftRight (s.reg y)) (bitOutRight (s.reg y))).advance

/-- 8xy7 (R93). -/
def execSubn (x y : Reg) (s : State) : Result :=
  .next (s.setResult x (subByte (s.reg y) (s.reg x)) (greater (s.reg y) (s.reg x))).advance

/-- 8xyE (R94): the source is Vy. -/
def execShl (x y : Reg) (s : State) : Result :=
  .next (s.setResult x (shiftLeft (s.reg y)) (bitOutLeft (s.reg y))).advance

/-- Cxnn (R95): the random byte is the step's input. -/
def execRnd (x : Reg) (nn : Byte) (s : State) : Result := .next (s.setReg x (s.rnd &&& nn)).advance

end Sys2Proof.Machine
end

