-- ==== Sys2Proof/Machine/ControlFlow.lean ====
section
/-! DEFINITION. Jumps, call and return, and the register skips (spec 41_control_flow.md). -/

namespace Sys2Proof.Machine

/-- 00EE (R73): `StackUnderflow` with an empty stack, before anything changes (R118). -/
def execRet (s : State) : Result :=
  if s.sp = 0 then .next (s.raise .stackUnderflow (encode .ret)) else .next (s.drop.jumpTo s.top)

/-- 1nnn (R74). -/
def execJp (nnn : Addr) (s : State) : Result := .next (s.jumpTo (zextAddr nnn))

/-- 2nnn (R75): pushes `pc + 2`; `StackOverflow` at SP = 15, before anything changes (R118). -/
def execCall (nnn : Addr) (s : State) : Result :=
  if s.sp = 15 then .next (s.raise .stackOverflow (encode (.call nnn)))
  else .next ((s.push (s.pc + 2)).jumpTo (zextAddr nnn))

/-- 3xnn (R76). -/
def execSeImm (x : Reg) (nn : Byte) (s : State) : Result := .next (s.skipIf (decide (s.reg x = nn)))

/-- 4xnn (R77). -/
def execSneImm (x : Reg) (nn : Byte) (s : State) : Result := .next (s.skipIf (decide (s.reg x ≠ nn)))

/-- 5xy0 (R78). -/
def execSeReg (x y : Reg) (s : State) : Result := .next (s.skipIf (decide (s.reg x = s.reg y)))

/-- 9xy0 (R79). -/
def execSneReg (x y : Reg) (s : State) : Result := .next (s.skipIf (decide (s.reg x ≠ s.reg y)))

/-- Bnnn (R80): the register is always V0. -/
def execJpV0 (nnn : Addr) (s : State) : Result := .next (s.jumpTo (zextAddr nnn + zextByte (s.reg 0)))

end Sys2Proof.Machine
end

