-- ==== Sys2Proof/Machine/Display.lean ====
section
/-! DEFINITION. Clear screen, the sprite unit and its collision detector (spec 44_display.md). -/

namespace Sys2Proof.Machine

/-- Every pixel off. -/
def Framebuffer.clear : Framebuffer := Vector.replicate 32 (Vector.replicate 64 false)

/-- `FB[r][c]`; off outside the screen, where there is no pixel. -/
def Framebuffer.pixel (fb : Framebuffer) (r c : Nat) : Bool :=
  if h : r < 32 ∧ c < 64 then (fb[r]'h.1)[c]'h.2 else false

/-- `FB[r][c] <- FB[r][c] XOR 1`; nothing outside the screen. -/
def Framebuffer.flipPixel (fb : Framebuffer) (r c : Nat) : Framebuffer :=
  if h : r < 32 ∧ c < 64 then fb.set r ((fb[r]'h.1).set c (!(fb[r]'h.1)[c]'h.2) h.2) h.1 else fb

/-- The pixel at a linear, row-major index `r × 64 + c` (R21). -/
def Framebuffer.pixelAt (fb : Framebuffer) (n : Nat) : Bool := Framebuffer.pixel fb (n / 64) (n % 64)

/-- A draw in progress: the framebuffer, and whether a pixel has collided. -/
structure Canvas where
  fb  : Framebuffer
  hit : Bool
  deriving DecidableEq, Repr

/-- One sprite bit at row `r`, column `c` (R105, R106): clipped outside the screen; a 1 bit collides with a pixel that is on and
flips the pixel. -/
def Canvas.drawBit (p : Canvas) (r c : Nat) (bit : Bool) : Canvas :=
  if c < 64 ∧ r < 32 ∧ bit then ⟨Framebuffer.flipPixel p.fb r c, p.hit || Framebuffer.pixel p.fb r c⟩ else p

/-- One sprite row, for the listed pixel numbers `b` in turn: pixel `b` is bit `7 - b` (R104). -/
def Canvas.drawRow (p : Canvas) (r c0 : Nat) (row : Byte) : List Nat → Canvas
  | []        => p
  | b :: rest => (p.drawBit r (c0 + b) (row.getLsbD (7 - b))).drawRow r c0 row rest

/-- The rows of a sprite from row `r` down (R107). -/
def Canvas.drawRows (p : Canvas) (r c0 : Nat) : List Byte → Canvas
  | []          => p
  | row :: rest => (p.drawRow r c0 row (List.range 8)).drawRows (r + 1) c0 rest

/-- The draw of Dxyn on the framebuffer, with the origin `(Vx mod 64, Vy mod 32)` (R105, R107). -/
def State.sprite (s : State) (x y : Reg) (n : Nibble) : Canvas :=
  Canvas.drawRows ⟨s.fb, false⟩ ((s.reg y).toNat % 32) ((s.reg x).toNat % 64) (s.spriteBytes n)

/-- `FB` replaced and DRAW set. -/
def State.display (s : State) (fb : Framebuffer) : State := { s with fb := fb, draw := true }

/-- 00E0 (R103). -/
def execCls (s : State) : Result := .next (s.display Framebuffer.clear).advance

/-- Dxyn (R107): VF is written after the framebuffer, and the position is read before it. -/
def execDrw (x y : Reg) (n : Nibble) (s : State) : Result :=
  .next ((s.display (s.sprite x y n).fb).setReg vf (flagByte (s.sprite x y n).hit)).advance

end Sys2Proof.Machine
end

