-- ==== Sys2Proof/Machine/IndexMemory.lean ====
section
/-! DEFINITION. The index register, the BCD encoder and the block store and load (spec 43_index_memory.md). -/

namespace Sys2Proof.Machine

/-- `I <- w`. -/
def State.setI (s : State) (w : Word) : State := { s with i := w }

/-- Registers loaded from rising addresses, `V[k] <- MemRead(I + k, 1)` for the listed `k` in turn (R102). -/
def State.loadRegs (s : State) : List Nat → State
  | []        => s
  | k :: rest => (s.setReg (BitVec.ofNat 4 k) (s.readMem (s.dataAddr k))).loadRegs rest

/-- Annn (R97). -/
def execLdI (nnn : Addr) (s : State) : Result := .next (s.setI (zextAddr nnn)).advance

/-- Fx1E (R98): modulo 65536, no flag. -/
def execAddI (x : Reg) (s : State) : Result := .next (s.setI (s.i + zextByte (s.reg x))).advance

/-- Fx29 (R99). -/
def execLdFont (x : Reg) (s : State) : Result := .next (s.setI (s.glyphAddr x)).advance

/-- Fx33 (R100). -/
def execLdBcd (x : Reg) (s : State) : Result := .next (s.writeMem (s.dataAddr 0) (bcdDigits (s.reg x))).advance

/-- Fx55 (R101): I is unchanged. -/
def execStore (x : Reg) (s : State) : Result := .next (s.writeMem (s.dataAddr 0) (s.block x)).advance

/-- Fx65 (R102): I is unchanged. -/
def execLoad (x : Reg) (s : State) : Result := .next (s.loadRegs (List.range (x.toNat + 1))).advance

end Sys2Proof.Machine
end

