-- ==== Sys2Proof/Machine/KeypadTimer.lean ====
section
/-! DEFINITION. The key tests, the key wait and the timer registers (spec 45_keypad_timer.md). -/

namespace Sys2Proof.Machine

/-- `STATUS <- t`. -/
def State.setStatus (s : State) (t : Status) : State := { s with status := t }

/-- `DT <- b`. -/
def State.setDt (s : State) (b : Byte) : State := { s with dt := b }

/-- `ST <- b`. -/
def State.setSt (s : State) (b : Byte) : State := { s with st := b }

/-- Ex9E (R109): a press that is found is consumed. -/
def execSkp (x : Reg) (s : State) : Result :=
  if s.keyDown (s.keyOf x) then .next ((s.setKey (s.keyOf x) false).skipIf true) else .next (s.skipIf false)

/-- ExA1 (R110): the cell is only read. -/
def execSknp (x : Reg) (s : State) : Result := .next (s.skipIf (!s.keyDown (s.keyOf x)))

/-- Fx07 (R111). -/
def execLdFromDt (x : Reg) (s : State) : Result := .next (s.setReg x s.dt).advance

/-- Fx0A (R112): the least key down is stored and consumed; with none down the core waits at this instruction. -/
def execLdKey (x : Reg) (s : State) : Result :=
  match s.leastKeyDown with
  | some k => .next (((s.setReg x (k.setWidth 8)).setKey k false).setStatus .run).advance
  | none   => .next (s.setStatus .wait)

/-- Fx15 (R113). -/
def execLdDt (x : Reg) (s : State) : Result := .next (s.setDt (s.reg x)).advance

/-- Fx18 (R114): never emits `SoundTrigger`. -/
def execLdSt (x : Reg) (s : State) : Result := .next (s.setSt (s.reg x)).advance

end Sys2Proof.Machine
end

