-- ==== Sys2Proof/WellFormed.lean ====
section
/-! DEFINITION. The checks on terms whose types do not already carry their bounds. An `Instr` needs none: a register number is
four bits and all sixteen name a register (spec R12), and `n`, `nn`, `nnn` have exactly the widths of their fields (R51). What is
checked is the configuration and the program image; the shape of memory is checked in Machine/Memory.lean. -/

namespace Sys2Proof

/-- `LOAD_ADDR` is one of its two values (R6). -/
def Config.loadAddrOk (c : Config) : Bool :=
  c.loadAddr == Config.defaultLoadAddr || c.loadAddr == Config.lowLoadAddr

/-- The font is 16 glyphs of 5 bytes (R6). -/
def Config.fontLengthOk (c : Config) : Bool := c.font.length == 80

/-- Glyph 5 has the bytes the source gives (R43). -/
def Config.glyphFiveOk (c : Config) : Bool := (c.font.drop 25).take 5 == [0xF0, 0x80, 0xF0, 0x10, 0xF0]

/-- A configuration the spec admits. -/
def Config.wf (c : Config) : Bool := c.loadAddrOk && c.fontLengthOk && c.glyphFiveOk

/-- The program image fits between `LOAD_ADDR` and the end of memory (R139, R140). -/
def Config.imageFits (c : Config) (image : List Byte) : Bool := decide (image.length ≤ c.maxImage)

end Sys2Proof
end

