-- ==== Sys2Proof/Machine/Events.lean ====
section
/-! DEFINITION. The events that are no step (timer tick, keys, load), and what the environment reads (spec 60_exceptions.md,
70_reset_and_hazards.md). `Reset` stands in Machine/Ops.lean beside the fault it is the way out of. -/

namespace Sys2Proof.Machine

/-- A timer one lower, with the floor 0 (R125). -/
def countDown (b : Byte) : Byte := if b = 0#8 then 0#8 else b - 1#8

/-- What a timer tick emits, by the sound timer before it: `SoundTrigger` exactly when ST goes from 1 to 0 (R126). -/
def tickOutputs (st : Byte) : List Output := if st = 1#8 then [.soundTrigger] else []

/-- `TimerTick` (R125): both timers count down; nothing in HALT (R69). -/
def State.timerTick (s : State) : State :=
  if s.status = .halt then s
  else { s with dt := countDown s.dt, st := countDown s.st, outputs := s.outputs ++ tickOutputs s.st }

/-- `KeyPress(k)` (R128); nothing in HALT (R69). -/
def State.keyPress (s : State) (k : Key) : State := if s.status = .halt then s else s.setKey k true

/-- `KeyRelease(k)` (R129); nothing in HALT (R69). -/
def State.keyRelease (s : State) (k : Key) : State := if s.status = .halt then s else s.setKey k false

/-- The image in memory from `LOAD_ADDR`, and no further `Load` (R139). -/
def State.placeImage (s : State) (c : Config) (image : List Byte) : State :=
  { s.writeMem c.loadAddr image with loadable := false }

/-- `Load(image)` (R138 to R140): once, before the first step; all of the image or, when it is too long, a load that fails with
no successor in which the core runs. -/
def State.loadImage (s : State) (c : Config) (image : List Byte) : Result :=
  if !s.loadable then .refused .loadAfterBoot
  else if c.imageFits image then .next (s.placeImage c image)
  else .fault .imageTooLarge

/-- The source's driver loop as one of the admitted schedules: in one driver tick a step, then a timer tick, then the key events
(R63). -/
def driverTick (r : Byte) (keys : List Event) : List Event := .step r :: .timerTick :: keys

/-- What the presentation adapter receives (R131): the framebuffer when DRAW is set, otherwise a no-redraw notification. -/
def State.present (s : State) : Option Framebuffer := if s.draw then some s.fb else none

end Sys2Proof.Machine
end

