-- ==== Sys2Proof/Machine/Cycle.lean ====
section
/-! DEFINITION. The execution cycle: one `Step`, one event, one move of the whole machine (spec 40_cycle.md). -/

namespace Sys2Proof.Machine

/-- `Step(r)` in RUN or WAIT (R64, R70): fetch, clear DRAW, decode, then execute or report an `Unknown` value. -/
def State.stepInstr (s : State) (r : Byte) : Result :=
  match decode s.fetch with
  | .ok i    => exec i (s.beginStep r)
  | .error _ => .next ((s.beginStep r).unknown s.fetch)

/-- One event (R61). In HALT every event but `Reset` changes nothing (R69). -/
def State.deliver (c : Config) (s : State) : Event → Result
  | .reset        => .next (s.resetFor c)
  | .load image   => s.loadImage c image
  | .step r       => if s.status = .halt then .next s else s.stepInstr r
  | .timerTick    => .next s.timerTick
  | .keyPress k   => .next (s.keyPress k)
  | .keyRelease k => .next (s.keyRelease k)

/-- A step the environment issues with no event of its own pending: its random byte is a free value (R62), and in HALT no step is
enabled (R69). -/
def State.freeStep (s : State) : Result :=
  if s.status = .halt then .fault .halted
  else { s with rndCount := s.rndCount + 1 }.stepInstr (Config.randomByte s.rndCount)

/-- One move of the machine: the environment's next event, or a step when it has none pending (R63: the environment chooses the
schedule). -/
def State.move (c : Config) (s : State) : Result :=
  match s.inputs with
  | e :: rest => { s with inputs := rest }.deliver c e
  | []        => s.freeStep

/-- The state in which the very next move is a step that fetches `op`: the word at `pc`, no event pending, the core not halted. -/
def State.readyToRun (s : State) (op : Word) : State := { s.placeWord op with inputs := [] }.unhalt

end Sys2Proof.Machine
end

