-- ==== Sys2Proof/Machine/Step.lean ====
section
/-! DEFINITION. The step of the machine, and the state with a word where the next step fetches. -/

namespace Sys2Proof.Machine

/-- One move with the default configuration (spec 40_cycle.md R61, R64). -/
def step (s : State) : Host.Outcome State Fault Refusal := s.move Config.standard

/-- `s` with the instruction whose table bits are `w` stored where the next step fetches it. -/
def State.withFetchWord (s : State) (nbits w : Nat) : State := s.readyToRun (tableWord nbits w)

end Sys2Proof.Machine
end

