-- ==== Sys2Proof/Safety.lean ====
section
/-! DEFINITION. The terms claims are made in: a coherent state, a state in which a step is enabled, and the ways an instruction
treats `pc` (spec 10_state.md R24, R25, 40_cycle.md R66, R70). -/

namespace Sys2Proof.Machine

/-- In WAIT the word at `pc` is an Fx0A (R24, R70). -/
def State.waitExplained (s : State) : Bool :=
  match decode s.fetch with
  | .ok (.ldKey _) => true
  | _              => false

/-- In HALT the word at `pc` is the instruction that faulted, SP is still where it faults and CAUSE names the fault (R25, R118,
R119). -/
def State.haltExplained (s : State) : Bool :=
  match decode s.fetch with
  | .ok .ret      => decide (s.sp = 0) && decide (s.cause = .stackUnderflow)
  | .ok (.call _) => decide (s.sp = 15) && decide (s.cause = .stackOverflow)
  | _             => false

/-- STATUS, CAUSE and the instruction at `pc` agree. -/
def State.statusExplained (s : State) : Bool :=
  match s.status with
  | .run  => decide (s.cause = .none)
  | .wait => decide (s.cause = .none) && !s.loadable && s.waitExplained
  | .halt => !s.loadable && s.haltExplained

/-- The invariant of the machine: memory is in canonical form, and STATUS, CAUSE and the instruction at `pc` agree. -/
def State.coherent (s : State) : Bool := s.mem.wf && s.statusExplained

/-- The event is one whose acceptance the spec limits: a `Load` (R138, R140). -/
def Event.isLoad : Event → Bool
  | .load _ => true
  | _       => false

/-- A move has a successor: the core is not halted, or the environment has an event for it, and that event is no `Load`. -/
def State.enabled (s : State) : Bool :=
  match s.inputs with
  | []     => decide (s.status ≠ .halt)
  | e :: _ => !e.isLoad

/-- `t` has the `pc` of class `Next` after `s` (R66). -/
def State.pcNext (s t : State) : Prop := t.pc.toNat = (s.pc.toNat + 2) % 65536

/-- `t` has the `pc` of class `Skip(c)` after `s` (R66, R67). -/
def State.pcSkip (s t : State) (c : Bool) : Prop := t.pc.toNat = (s.pc.toNat + if c then 4 else 2) % 65536

/-- Every register but `x` is as it was. -/
def State.othersKept (s t : State) (x : Reg) : Prop := ∀ r, r ≠ x → t.reg r = s.reg r

/-- Every register but `x` and VF is as it was. -/
def State.othersKeptButFlag (s t : State) (x : Reg) : Prop := ∀ r, r ≠ x → r ≠ vf → t.reg r = s.reg r

/-- Nested calls: one 2nnn after another, each to the next address of the list. -/
def State.nestCalls : State → List Addr → Result
  | s, []          => .next s
  | s, nnn :: rest =>
    match exec (.call nnn) s with
    | .next t    => t.nestCalls rest
    | .fault r   => .fault r
    | .refused r => .refused r

/-- The states differ at most in stack entries no instruction reads: entry 0 and the entries above SP (R17, R19). -/
def State.sameButStale (s t : State) : Prop :=
  t = { s with stack := t.stack } ∧ ∀ k : Fin 16, 0 < k.val → k.val ≤ s.sp.val → t.stack[k] = s.stack[k]

/-- Whether Dxyn has a sprite bit 1 for the pixel at row `r`, column `c`: the pixel lies in the `n` rows and 8 columns from the
origin, and its bit of its row's byte is 1 (R104, R105). -/
def State.spriteBit (s : State) (x y : Reg) (n : Nibble) (r c : Nat) : Bool :=
  let r0 := (s.reg y).toNat % 32
  let c0 := (s.reg x).toNat % 64
  decide (r0 ≤ r ∧ r < r0 + n.toNat ∧ c0 ≤ c ∧ c < c0 + 8) &&
    (s.readMem (s.i.toNat + (r - r0))).getLsbD (7 - (c - c0))

end Sys2Proof.Machine

namespace Sys2Proof

/-- The instructions whose class is `Jump` (R66). -/
def Instr.jumps : Instr → Bool
  | .jp _ | .call _ | .jpV0 _ | .ret => true
  | _                                => false

/-- The instructions whose class is `Skip` (R66). -/
def Instr.skips : Instr → Bool
  | .seImm _ _ | .sneImm _ _ | .seReg _ _ | .sneReg _ _ | .skp _ | .sknp _ => true
  | _                                                                      => false

/-- The instructions that write VF as a side effect (R14). -/
def Instr.writesFlag : Instr → Bool
  | .addReg _ _ | .subReg _ _ | .subn _ _ | .shr _ _ | .shl _ _ | .drw _ _ _ => true
  | _                                                                        => false

/-- The instruction names register `r` as a destination: `Vx`, or the block V0 to Vx of Fx65 (R13). -/
def Instr.namesDest (i : Instr) (r : Reg) : Bool :=
  match i with
  | .ldImm x _ | .addImm x _ | .rnd x _ | .ldFromDt x | .ldKey x => decide (r = x)
  | .ldReg x _ | .orReg x _ | .andReg x _ | .xorReg x _          => decide (r = x)
  | .addReg x _ | .subReg x _ | .subn x _ | .shr x _ | .shl x _  => decide (r = x)
  | .load x                                                      => decide (r.toNat ≤ x.toNat)
  | _                                                            => false

/-- The instruction draws or clears the screen (R23). -/
def Instr.draws : Instr → Bool
  | .cls | .drw _ _ _ => true
  | _                 => false

/-- The instruction writes memory (R35). -/
def Instr.stores : Instr → Bool
  | .ldBcd _ | .store _ => true
  | _                   => false

/-- The instruction writes I (R15). -/
def Instr.writesI : Instr → Bool
  | .ldI _ | .addI _ | .ldFont _ => true
  | _                            => false

/-- The instruction can clear a key cell (R22). -/
def Instr.consumesKey : Instr → Bool
  | .skp _ | .ldKey _ => true
  | _                 => false

end Sys2Proof
end

