-- ==== Sys2Proof/Certificates/Slice0/Obligations.lean ====
section
/-! DEFINITION. The statements about the model, in the order of OBLIGATIONS.json. Where a statement rests on a choice the spec marks
as its own decision, its docstring names the decision. -/

section

open Sys2Proof Sys2Proof.Machine

/-! ## Encoding -/

/-- O1. No operand of any instruction loses a bit on its way through the word (R51, R53, R55). -/
def Obligations.DecodeInvertsEncode : Prop :=
  ∀ i : Instr, decode (encode i) = .ok i

/-- O2. A word that decodes is the word of the instruction it decodes to: each word has one meaning (R54, R55; that every
fixed bit must match is decision D14, assumption 14). -/
def Obligations.EncodeInvertsDecode : Prop :=
  ∀ (op : Word) (i : Instr), decode op = .ok i → encode i = op

/-- O3. The decoder is the opcode map: a word decodes to the instruction of the one row it matches, and to `Unknown` exactly when
it matches none (R54; matching every fixed bit is decision D14). -/
def Obligations.DecodeFollowsTheOpcodeMap : Prop :=
  opcodeMap.length = 34 ∧
  (∀ (op : Word) (i : Instr), decode op = .ok i → ∃ row, opcodeMap[i.rowIndex]? = some row ∧ row.has op = true) ∧
  (∀ op : Word, decode op = .error (.unknownOpcode op) ↔ ∀ row ∈ opcodeMap, row.has op = false) ∧
  (∀ (op : Word) (m n : Nat) (a b : Row), opcodeMap[m]? = some a → opcodeMap[n]? = some b →
    a.has op = true → b.has op = true → m = n) ∧
  (∀ (op : Word) (i : Instr), decode op = .ok i → op.toNat / 4096 = 0 → op = 0x00E0 ∨ op = 0x00EE) ∧
  (∀ (op : Word) (i : Instr), decode op = .ok i → op.toNat / 4096 = 5 ∨ op.toNat / 4096 = 9 → op.toNat % 16 = 0)

/-- O4. Words of 95_test_vectors.md 2.1 decode as that table says (that 0x01E0 and 0x5121 are `Unknown` is decision D14,
assumption 14). -/
def Obligations.ListedWordsDecode : Prop :=
  decode 0x00EE = .ok .ret ∧ decode 0x1FFF = .ok (.jp 0xFFF) ∧ decode 0x5120 = .ok (.seReg 1 2) ∧
  decode 0x812E = .ok (.shl 1 2) ∧ decode 0x9AB0 = .ok (.sneReg 0xA 0xB) ∧ decode 0xD000 = .ok (.drw 0 0 0) ∧
  decode 0xE19E = .ok (.skp 1) ∧ decode 0xF129 = .ok (.ldFont 1) ∧
  decode 0x01E0 = .error (.unknownOpcode 0x01E0) ∧ decode 0x5121 = .error (.unknownOpcode 0x5121) ∧
  decode 0x8008 = .error (.unknownOpcode 0x8008) ∧ decode 0xF130 = .error (.unknownOpcode 0xF130)

/-! ## The cycle -/

/-- O5. The fetch is two bytes, high byte first, both addresses modulo 4096 (R36; the wrap is decision D7, that an odd
`pc` fetches is D9: assumptions 10, 14). -/
def Obligations.FetchIsBigEndianAndWraps : Prop :=
  ∀ s : State, s.fetch.toNat =
    (s.mem.lookup (s.pc.toNat % 4096)).toNat * 256 + (s.mem.lookup ((s.pc.toNat + 1) % 4096)).toNat

/-- O6. A step runs the decoded instruction: on the state with DRAW cleared and the step's random byte taken. With a `Step` event
pending the byte is the event's; with no event pending it is a free value, and the counter of free values moves on (that a step
follows when no event is pending, and the three model fields, are the model's choice: assumptions 2, 3, 5; that the
byte has no law is decision D23, when DRAW is cleared D31). -/
def Obligations.StepRunsTheDecodedInstruction : Prop :=
  (∀ (s : State) (i : Instr), s.status ≠ .halt → s.inputs = [] → decode s.fetch = .ok i →
    step s = exec i { s with draw := false, loadable := false, rnd := Config.randomByte s.rndCount,
                             rndCount := s.rndCount + 1 }) ∧
  (∀ (s : State) (i : Instr) (r : Byte) (rest : List Event), s.status ≠ .halt → s.inputs = .step r :: rest →
    decode s.fetch = .ok i →
    step s = exec i { s with draw := false, loadable := false, rnd := r, inputs := rest })

/-- O7. An `Unknown` value is reported with its `pc` and skipped; no register, memory, timer, keypad, framebuffer or status
changes (R68; decision D32). -/
def Obligations.UnknownValuesAreReportedAndSkipped : Prop :=
  ∀ (c : Config) (s : State) (r : Byte), s.status ≠ .halt → decode s.fetch = .error (.unknownOpcode s.fetch) →
    ∃ t, s.deliver c (.step r) = .next t ∧ s.pcNext t ∧ t.draw = false ∧
      t.outputs = s.outputs ++ [.unknownOpcode s.pc s.fetch] ∧
      t = { s with pc := t.pc, draw := false, outputs := t.outputs, rnd := r, loadable := false }

/-- O8. In HALT a step, a timer tick and a key event change nothing, a `Load` is refused once the boot is over, only `Reset` leaves
HALT, and with no event pending no step is enabled (R69; decision D12; that `step` then stops with the fault `halted` is assumption
7, the refusal of the `Load` decision D27 with assumptions 4 and 9). -/
def Obligations.OnlyResetLeavesHalt : Prop :=
  ∀ (c : Config) (s : State), s.status = .halt →
    (∀ r, s.deliver c (.step r) = .next s) ∧ s.deliver c .timerTick = .next s ∧
    (∀ k, s.deliver c (.keyPress k) = .next s) ∧ (∀ k, s.deliver c (.keyRelease k) = .next s) ∧
    (s.loadable = false → ∀ image, s.deliver c (.load image) = .refused .loadAfterBoot) ∧
    (∃ t, s.deliver c .reset = .next t ∧ t.status = .run) ∧
    (∀ e t, s.deliver c e = .next t → t.status ≠ .halt → e = .reset) ∧
    (s.inputs = [] → step s = .fault .halted)

/-- O9. After a step outside HALT, DRAW is set exactly when the step executed 00E0 or Dxyn; a timer tick, a key event and a load
do not change it (R65; decision D31). -/
def Obligations.DrawFlagFollowsTheLastInstruction : Prop :=
  (∀ (c : Config) (s t : State) (r : Byte), s.status ≠ .halt → s.deliver c (.step r) = .next t →
    (t.draw = true ↔ ∃ i, decode s.fetch = .ok i ∧ i.draws = true)) ∧
  (∀ (c : Config) (s t : State) (e : Event), (e = .timerTick ∨ (∃ k, e = .keyPress k ∨ e = .keyRelease k) ∨ e.isLoad = true) →
    s.deliver c e = .next t → t.draw = s.draw)

/-- O10. A step emits at most one output event, and it is never `SoundTrigger` (R71, R126; that no step emits it, Fx18 among them,
is decision D20, assumption 14, and the list of output events is the model's, assumption 5). -/
def Obligations.StepEmitsAtMostOneOutput : Prop :=
  ∀ (c : Config) (s t : State) (r : Byte), s.deliver c (.step r) = .next t →
    t.outputs = s.outputs ∨ ∃ o, o ≠ .soundTrigger ∧ t.outputs = s.outputs ++ [o]

/-- O11. Nothing but HALT with no event pending, and a `Load`, leaves the machine without a successor (R69, R120, R138;
decisions D7, D12, D27; the pending events and the stops are the model's: assumptions 2, 7, 9). -/
def Obligations.EnabledMovesHaveASuccessor : Prop :=
  ∀ s : State, s.enabled = true → ∃ t, step s = .next t

/-! ## Control flow -/

/-- O12. 00EE (R73): the entry at SP goes to `pc` and SP falls by one, the entry is not cleared; with SP = 0 it is
`StackUnderflow` before anything changes (decisions D10 to D13). -/
def Obligations.ReturnRule : Prop :=
  encode .ret = 0x00EE ∧
  (∀ s : State, s.sp.val ≠ 0 → ∃ t, exec .ret s = .next t ∧ t.pc = s.stack[s.sp] ∧ t.sp.val = s.sp.val - 1 ∧
    t = { s with pc := t.pc, sp := t.sp }) ∧
  (∀ s : State, s.sp.val = 0 → ∃ t, exec .ret s = .next t ∧ t.status = .halt ∧ t.cause = .stackUnderflow ∧
    t.outputs = s.outputs ++ [.fault .stackUnderflow s.pc 0x00EE] ∧
    t = { s with status := t.status, cause := t.cause, outputs := t.outputs })

/-- O13. 1nnn (R74): only `pc` changes, to nnn. -/
def Obligations.JumpRule : Prop :=
  ∀ nnn : Addr, (encode (.jp nnn)).toNat = 0x1000 + nnn.toNat ∧
    ∀ s : State, ∃ t, exec (.jp nnn) s = .next t ∧ t.pc.toNat = nnn.toNat ∧ t = { s with pc := t.pc }

/-- O14. Bnnn (R80): only `pc` changes, to nnn plus V0, without a wrap; a target of 0x1000 or more is kept as it is (decision
D8). -/
def Obligations.JumpPlusV0Rule : Prop :=
  ∀ nnn : Addr, (encode (.jpV0 nnn)).toNat = 0xB000 + nnn.toNat ∧
    ∀ s : State, ∃ t, exec (.jpV0 nnn) s = .next t ∧ t.pc.toNat = nnn.toNat + (s.reg 0).toNat ∧
      t = { s with pc := t.pc }

/-- O15. 2nnn (R75): SP rises, then `pc + 2` is written at SP, and `pc` becomes nnn; with SP = 15 it is `StackOverflow` before
anything changes (decisions D10 to D13). -/
def Obligations.CallRule : Prop :=
  ∀ nnn : Addr, (encode (.call nnn)).toNat = 0x2000 + nnn.toNat ∧
  (∀ s : State, s.sp.val ≠ 15 → ∃ t, exec (.call nnn) s = .next t ∧ t.pc.toNat = nnn.toNat ∧
    t.sp.val = s.sp.val + 1 ∧ t.stack[t.sp].toNat = (s.pc.toNat + 2) % 65536 ∧
    (∀ k : Fin 16, k ≠ t.sp → t.stack[k] = s.stack[k]) ∧
    t = { s with pc := t.pc, sp := t.sp, stack := t.stack }) ∧
  (∀ s : State, s.sp.val = 15 → ∃ t, exec (.call nnn) s = .next t ∧ t.status = .halt ∧ t.cause = .stackOverflow ∧
    (∃ op : Word, op.toNat = 0x2000 + nnn.toNat ∧ t.outputs = s.outputs ++ [.fault .stackOverflow s.pc op]) ∧
    t = { s with status := t.status, cause := t.cause, outputs := t.outputs })

/-- O16. 3xnn and 4xnn (R76, R77): only `pc` changes, by 4 when the comparison with nn holds and by 2 otherwise
(the distances are decision D29, assumption 14). -/
def Obligations.ImmediateSkipRules : Prop :=
  (∀ (x : Reg) (nn : Byte), (encode (.seImm x nn)).toNat = 0x3000 + x.toNat * 256 + nn.toNat ∧
    ∀ s : State, ∃ t, exec (.seImm x nn) s = .next t ∧ t = { s with pc := t.pc } ∧
      s.pcSkip t (decide ((s.reg x).toNat = nn.toNat))) ∧
  (∀ (x : Reg) (nn : Byte), (encode (.sneImm x nn)).toNat = 0x4000 + x.toNat * 256 + nn.toNat ∧
    ∀ s : State, ∃ t, exec (.sneImm x nn) s = .next t ∧ t = { s with pc := t.pc } ∧
      s.pcSkip t (decide ((s.reg x).toNat ≠ nn.toNat)))

/-- O17. 5xy0 and 9xy0 (R78, R79): only `pc` changes, by 4 when the comparison holds and by 2 otherwise; with bits 3:0 not 0 the
value is `Unknown` (decisions D14, D29). -/
def Obligations.RegisterSkipRules : Prop :=
  (∀ op : Word, op.toNat / 4096 = 5 ∨ op.toNat / 4096 = 9 → op.toNat % 16 ≠ 0 →
    decode op = .error (.unknownOpcode op)) ∧
  (∀ x y : Reg, (encode (.seReg x y)).toNat = 0x5000 + x.toNat * 256 + y.toNat * 16 ∧
    ∀ s : State, ∃ t, exec (.seReg x y) s = .next t ∧ t = { s with pc := t.pc } ∧
      s.pcSkip t (decide ((s.reg x).toNat = (s.reg y).toNat))) ∧
  (∀ x y : Reg, (encode (.sneReg x y)).toNat = 0x9000 + x.toNat * 256 + y.toNat * 16 ∧
    ∀ s : State, ∃ t, exec (.sneReg x y) s = .next t ∧ t = { s with pc := t.pc } ∧
      s.pcSkip t (decide ((s.reg x).toNat ≠ (s.reg y).toNat)))

/-! ## Register loads and the ALU -/

/-- O18. 6xnn, 8xy0, Fx07 (R84, R86, R111): Vx becomes nn, Vy, or the delay timer; nothing else but `pc` changes. -/
def Obligations.RegisterLoadRules : Prop :=
  (∀ (x : Reg) (nn : Byte), (encode (.ldImm x nn)).toNat = 0x6000 + x.toNat * 256 + nn.toNat ∧
    ∀ s : State, ∃ t, exec (.ldImm x nn) s = .next t ∧ t = { s with v := t.v, pc := t.pc } ∧ s.pcNext t ∧
      t.reg x = nn ∧ s.othersKept t x) ∧
  (∀ x y : Reg, (encode (.ldReg x y)).toNat = 0x8000 + x.toNat * 256 + y.toNat * 16 ∧
    ∀ s : State, ∃ t, exec (.ldReg x y) s = .next t ∧ t = { s with v := t.v, pc := t.pc } ∧ s.pcNext t ∧
      t.reg x = s.reg y ∧ s.othersKept t x) ∧
  (∀ x : Reg, (encode (.ldFromDt x)).toNat = 0xF007 + x.toNat * 256 ∧
    ∀ s : State, ∃ t, exec (.ldFromDt x) s = .next t ∧ t = { s with v := t.v, pc := t.pc } ∧ s.pcNext t ∧
      t.reg x = s.dt ∧ s.othersKept t x)

/-- O19. Cxnn (R95): Vx becomes the step's random byte AND nn; nothing else but `pc` changes. The byte is any of the 256 values
(R62, decision D23), so every result `r AND nn` occurs. -/
def Obligations.RandomByteRule : Prop :=
  ∀ (x : Reg) (nn : Byte), (encode (.rnd x nn)).toNat = 0xC000 + x.toNat * 256 + nn.toNat ∧
    (∀ s : State, ∃ t, exec (.rnd x nn) s = .next t ∧ t = { s with v := t.v, pc := t.pc } ∧ s.pcNext t ∧
      (∀ j, (t.reg x).getLsbD j = (s.rnd.getLsbD j && nn.getLsbD j)) ∧ s.othersKept t x) ∧
    (∀ (c : Config) (s : State) (r : Byte), s.status ≠ .halt → decode s.fetch = .ok (.rnd x nn) →
      ∃ t, s.deliver c (.step r) = .next t ∧ ∀ j, (t.reg x).getLsbD j = (r.getLsbD j && nn.getLsbD j))

/-- O20. 7xnn (R85): the sum modulo 256, and VF is not written unless it is Vx. -/
def Obligations.AddImmediateRule : Prop :=
  ∀ (x : Reg) (nn : Byte), (encode (.addImm x nn)).toNat = 0x7000 + x.toNat * 256 + nn.toNat ∧
    ∀ s : State, ∃ t, exec (.addImm x nn) s = .next t ∧ t = { s with v := t.v, pc := t.pc } ∧ s.pcNext t ∧
      (t.reg x).toNat = ((s.reg x).toNat + nn.toNat) % 256 ∧ s.othersKept t x

/-- O21. 8xy1, 8xy2, 8xy3 (R87 to R89): bit by bit, and VF is not reset (that these leave VF alone, R83, is decision D36:
assumption 14). -/
def Obligations.LogicRules : Prop :=
  (∀ x y : Reg, (encode (.orReg x y)).toNat = 0x8001 + x.toNat * 256 + y.toNat * 16 ∧
    ∀ s : State, ∃ t, exec (.orReg x y) s = .next t ∧ t = { s with v := t.v, pc := t.pc } ∧ s.pcNext t ∧
      (∀ j, (t.reg x).getLsbD j = ((s.reg x).getLsbD j || (s.reg y).getLsbD j)) ∧ s.othersKept t x) ∧
  (∀ x y : Reg, (encode (.andReg x y)).toNat = 0x8002 + x.toNat * 256 + y.toNat * 16 ∧
    ∀ s : State, ∃ t, exec (.andReg x y) s = .next t ∧ t = { s with v := t.v, pc := t.pc } ∧ s.pcNext t ∧
      (∀ j, (t.reg x).getLsbD j = ((s.reg x).getLsbD j && (s.reg y).getLsbD j)) ∧ s.othersKept t x) ∧
  (∀ x y : Reg, (encode (.xorReg x y)).toNat = 0x8003 + x.toNat * 256 + y.toNat * 16 ∧
    ∀ s : State, ∃ t, exec (.xorReg x y) s = .next t ∧ t = { s with v := t.v, pc := t.pc } ∧ s.pcNext t ∧
      (∀ j, (t.reg x).getLsbD j = ((s.reg x).getLsbD j ^^ (s.reg y).getLsbD j)) ∧ s.othersKept t x)

/-- O22. 8xy4 (R90): the sum modulo 256, and VF the carry, which wins when x is VF (decision D15). -/
def Obligations.AddWithCarryRule : Prop :=
  ∀ x y : Reg, (encode (.addReg x y)).toNat = 0x8004 + x.toNat * 256 + y.toNat * 16 ∧
    ∀ s : State, ∃ t, exec (.addReg x y) s = .next t ∧ t = { s with v := t.v, pc := t.pc } ∧ s.pcNext t ∧
      (x ≠ vf → (t.reg x).toNat = ((s.reg x).toNat + (s.reg y).toNat) % 256) ∧
      (t.reg vf).toNat = (if (s.reg x).toNat + (s.reg y).toNat > 255 then 1 else 0) ∧ s.othersKeptButFlag t x

/-- O23. 8xy5 and 8xy7 (R91, R93): the exact difference modulo 256, and VF set when the minuend is strictly greater, which wins
when x is VF (decision D15). -/
def Obligations.SubtractRules : Prop :=
  (∀ x y : Reg, (encode (.subReg x y)).toNat = 0x8005 + x.toNat * 256 + y.toNat * 16 ∧
    ∀ s : State, ∃ t, exec (.subReg x y) s = .next t ∧ t = { s with v := t.v, pc := t.pc } ∧ s.pcNext t ∧
      (x ≠ vf → ((t.reg x).toNat : Int) = (((s.reg x).toNat : Int) - ((s.reg y).toNat : Int)) % 256) ∧
      (t.reg vf).toNat = (if (s.reg x).toNat > (s.reg y).toNat then 1 else 0) ∧ s.othersKeptButFlag t x) ∧
  (∀ x y : Reg, (encode (.subn x y)).toNat = 0x8007 + x.toNat * 256 + y.toNat * 16 ∧
    ∀ s : State, ∃ t, exec (.subn x y) s = .next t ∧ t = { s with v := t.v, pc := t.pc } ∧ s.pcNext t ∧
      (x ≠ vf → ((t.reg x).toNat : Int) = (((s.reg y).toNat : Int) - ((s.reg x).toNat : Int)) % 256) ∧
      (t.reg vf).toNat = (if (s.reg y).toNat > (s.reg x).toNat then 1 else 0) ∧ s.othersKeptButFlag t x)

/-- O24. 8xy6 and 8xyE (R92, R94): Vy moved one place into Vx, and VF the bit that fell out, which wins when x is VF
(decision D15). -/
def Obligations.ShiftRules : Prop :=
  (∀ x y : Reg, (encode (.shr x y)).toNat = 0x8006 + x.toNat * 256 + y.toNat * 16 ∧
    ∀ s : State, ∃ t, exec (.shr x y) s = .next t ∧ t = { s with v := t.v, pc := t.pc } ∧ s.pcNext t ∧
      (x ≠ vf → (t.reg x).toNat = (s.reg y).toNat / 2) ∧
      (t.reg vf).toNat = (s.reg y).toNat % 2 ∧ s.othersKeptButFlag t x) ∧
  (∀ x y : Reg, (encode (.shl x y)).toNat = 0x800E + x.toNat * 256 + y.toNat * 16 ∧
    ∀ s : State, ∃ t, exec (.shl x y) s = .next t ∧ t = { s with v := t.v, pc := t.pc } ∧ s.pcNext t ∧
      (x ≠ vf → (t.reg x).toNat = (s.reg y).toNat * 2 % 256) ∧
      (t.reg vf).toNat = (s.reg y).toNat / 128 ∧ s.othersKeptButFlag t x)

/-! ## Index register and memory -/

/-- O25. Annn and Fx29 (R97, R99): I becomes nnn, or the address of the glyph of Vx's low nibble; only I and `pc` change. -/
def Obligations.IndexLoadRules : Prop :=
  (∀ nnn : Addr, (encode (.ldI nnn)).toNat = 0xA000 + nnn.toNat ∧
    ∀ s : State, ∃ t, exec (.ldI nnn) s = .next t ∧ t = { s with i := t.i, pc := t.pc } ∧ s.pcNext t ∧
      t.i.toNat = nnn.toNat) ∧
  (∀ x : Reg, (encode (.ldFont x)).toNat = 0xF029 + x.toNat * 256 ∧
    ∀ s : State, ∃ t, exec (.ldFont x) s = .next t ∧ t = { s with i := t.i, pc := t.pc } ∧ s.pcNext t ∧
      t.i.toNat = 5 * ((s.reg x).toNat % 16))

/-- O26. Fx1E (R98): I becomes I plus Vx modulo 65536; only I and `pc` change, VF among the rest (decision D8). -/
def Obligations.AddToIndexRule : Prop :=
  ∀ x : Reg, (encode (.addI x)).toNat = 0xF01E + x.toNat * 256 ∧
    ∀ s : State, ∃ t, exec (.addI x) s = .next t ∧ t = { s with i := t.i, pc := t.pc } ∧ s.pcNext t ∧
      t.i.toNat = (s.i.toNat + (s.reg x).toNat) % 65536

/-- O27. Fx33 (R100): the three decimal digits at I, I + 1, I + 2 modulo 4096, a byte each; every other byte of memory, I and
every register are as they were (decision D7; that the font region is written like any other is D21). -/
def Obligations.BcdRule : Prop :=
  ∀ x : Reg, (encode (.ldBcd x)).toNat = 0xF033 + x.toNat * 256 ∧
    ∀ s : State, ∃ t, exec (.ldBcd x) s = .next t ∧ t = { s with mem := t.mem, pc := t.pc } ∧ s.pcNext t ∧
      (t.readMem s.i.toNat).toNat = (s.reg x).toNat / 100 ∧
      (t.readMem (s.i.toNat + 1)).toNat = (s.reg x).toNat / 10 % 10 ∧
      (t.readMem (s.i.toNat + 2)).toNat = (s.reg x).toNat % 10 ∧
      (∀ a, (∀ j, j < 3 → a % 4096 ≠ (s.i.toNat + j) % 4096) → t.readMem a = s.readMem a)

/-- O28. Fx55 (R101): V0 to Vx at I to I + x modulo 4096; every other byte of memory, I and every register are as they were (that
I is unchanged is decision D36, the wrap D7, that the font region is written like any other D21). -/
def Obligations.BlockStoreRule : Prop :=
  ∀ x : Reg, (encode (.store x)).toNat = 0xF055 + x.toNat * 256 ∧
    ∀ s : State, ∃ t, exec (.store x) s = .next t ∧ t = { s with mem := t.mem, pc := t.pc } ∧ s.pcNext t ∧
      (∀ r : Reg, r.toNat ≤ x.toNat → t.readMem (s.i.toNat + r.toNat) = s.reg r) ∧
      (∀ a, (∀ j, j ≤ x.toNat → a % 4096 ≠ (s.i.toNat + j) % 4096) → t.readMem a = s.readMem a)

/-- O29. Fx65 (R102): V0 to Vx from I to I + x modulo 4096; the registers above x, I and all of memory are as they were (that I
is unchanged is decision D36). -/
def Obligations.BlockLoadRule : Prop :=
  ∀ x : Reg, (encode (.load x)).toNat = 0xF065 + x.toNat * 256 ∧
    ∀ s : State, ∃ t, exec (.load x) s = .next t ∧ t = { s with v := t.v, pc := t.pc } ∧ s.pcNext t ∧
      (∀ r : Reg, r.toNat ≤ x.toNat → t.reg r = s.readMem (s.i.toNat + r.toNat)) ∧
      (∀ r : Reg, x.toNat < r.toNat → t.reg r = s.reg r)

/-! ## Display -/

/-- O30. 00E0 (R103): every pixel off and DRAW set; VF and everything else as it was. -/
def Obligations.ClearScreenRule : Prop :=
  encode .cls = 0x00E0 ∧
  ∀ s : State, ∃ t, exec .cls s = .next t ∧ t = { s with fb := t.fb, draw := t.draw, pc := t.pc } ∧ s.pcNext t ∧
    t.draw = true ∧ ∀ r c, r < 32 → c < 64 → Framebuffer.pixel t.fb r c = false

/-- O31. Dxyn (R107, with R105 and R106): every pixel of the screen is XORed with the sprite bit that lands on it, pixels past an
edge are clipped, VF tells whether a pixel that was on met a sprite bit 1, DRAW is set (decisions D7, D15, D16, D17; that bit 7 of
a row is its leftmost pixel, R104, is presumed: assumption 15). -/
def Obligations.DrawRule : Prop :=
  ∀ (x y : Reg) (n : Nibble), (encode (.drw x y n)).toNat = 0xD000 + x.toNat * 256 + y.toNat * 16 + n.toNat ∧
    ∀ s : State, ∃ t, exec (.drw x y n) s = .next t ∧
      t = { s with v := t.v, fb := t.fb, draw := t.draw, pc := t.pc } ∧ s.pcNext t ∧ t.draw = true ∧
      (∀ r c, r < 32 → c < 64 →
        Framebuffer.pixel t.fb r c = (Framebuffer.pixel s.fb r c ^^ s.spriteBit x y n r c)) ∧
      (t.reg vf = 1 ∨ t.reg vf = 0) ∧
      (t.reg vf = 1 ↔ ∃ r c, r < 32 ∧ c < 64 ∧ s.spriteBit x y n r c = true ∧ Framebuffer.pixel s.fb r c = true) ∧
      s.othersKept t vf

/-! ## Keypad and timers -/

/-- O32. Ex9E and ExA1 (R109, R110): a skip on the key of Vx's low nibble; Ex9E clears a cell it finds down, ExA1 clears none
(decision D18; the skip distances are D29). -/
def Obligations.KeySkipRules : Prop :=
  (∀ x : Reg, (encode (.skp x)).toNat = 0xE09E + x.toNat * 256 ∧
    ∀ (s : State) (k : Key), k.toNat = (s.reg x).toNat % 16 → ∃ t, exec (.skp x) s = .next t ∧
      t = { s with key := t.key, pc := t.pc } ∧ s.pcSkip t (s.keyDown k) ∧
      t.keyDown k = false ∧ ∀ j, j ≠ k → t.keyDown j = s.keyDown j) ∧
  (∀ x : Reg, (encode (.sknp x)).toNat = 0xE0A1 + x.toNat * 256 ∧
    ∀ (s : State) (k : Key), k.toNat = (s.reg x).toNat % 16 → ∃ t, exec (.sknp x) s = .next t ∧
      t = { s with pc := t.pc } ∧ s.pcSkip t (!s.keyDown k))

/-- O33. Fx0A (R112): with a key down, the least such key goes to Vx, its cell is cleared, STATUS is RUN and `pc` advances; with
none down STATUS becomes WAIT and nothing else changes (decision D19). -/
def Obligations.KeyWaitRule : Prop :=
  ∀ x : Reg, (encode (.ldKey x)).toNat = 0xF00A + x.toNat * 256 ∧
  (∀ (s : State) (k : Key), s.keyDown k = true → (∀ j : Key, j.toNat < k.toNat → s.keyDown j = false) →
    ∃ t, exec (.ldKey x) s = .next t ∧ t = { s with v := t.v, key := t.key, status := t.status, pc := t.pc } ∧
      s.pcNext t ∧ t.status = .run ∧ (t.reg x).toNat = k.toNat ∧ s.othersKept t x ∧ t.keyDown k = false ∧
      ∀ j, j ≠ k → t.keyDown j = s.keyDown j) ∧
  (∀ s : State, (∀ k, s.keyDown k = false) → ∃ t, exec (.ldKey x) s = .next t ∧ t.status = .wait ∧
    t = { s with status := t.status })

/-- O34. Fx15 (R113): the delay timer becomes Vx; only DT and `pc` change. -/
def Obligations.DelayTimerWriteRule : Prop :=
  ∀ x : Reg, (encode (.ldDt x)).toNat = 0xF015 + x.toNat * 256 ∧
    ∀ s : State, ∃ t, exec (.ldDt x) s = .next t ∧ t = { s with dt := t.dt, pc := t.pc } ∧ s.pcNext t ∧
      t.dt = s.reg x

/-- O35. Fx18 (R114): the sound timer becomes Vx; only ST and `pc` change, and no output event is emitted, even when ST goes from
1 to 0 (decision D20). -/
def Obligations.SoundTimerWriteRule : Prop :=
  ∀ x : Reg, (encode (.ldSt x)).toNat = 0xF018 + x.toNat * 256 ∧
    ∀ s : State, ∃ t, exec (.ldSt x) s = .next t ∧ t = { s with st := t.st, pc := t.pc } ∧ s.pcNext t ∧
      t.st = s.reg x ∧ t.outputs = s.outputs

/-! ## Rules about every instruction -/

/-- O36. A register changes only under an instruction that names it as a destination, or, for VF, one that writes its flag
(R13, R14; that nothing else is written is decision D36). -/
def Obligations.RegistersChangeOnlyAsNamed : Prop :=
  ∀ (i : Instr) (s t : State) (r : Reg), exec i s = .next t → t.reg r ≠ s.reg r →
    i.namesDest r = true ∨ (r = vf ∧ i.writesFlag = true)

/-- O37. What else an instruction may change: I only by Annn, Fx1E, Fx29; the stack only by 2nnn; SP only by 2nnn and 00EE; the
timers only by Fx15 and Fx18; pixels only by 00E0 and Dxyn; memory only by Fx33 and Fx55; keys only by Ex9E and Fx0A, and
then from down to up (R10, R15, R17, R20, R21, R22, R35; that an effect the table does not list is not made, so that Fx55 and Fx65
leave I, is decision D36, and that ExA1 consumes no key is D18: assumption 14). -/
def Obligations.EachStateHasItsWriters : Prop :=
  ∀ (i : Instr) (s t : State), exec i s = .next t →
    (t.i ≠ s.i → i.writesI = true) ∧
    (t.stack ≠ s.stack → ∃ nnn, i = .call nnn) ∧
    (t.sp ≠ s.sp → i = .ret ∨ ∃ nnn, i = .call nnn) ∧
    (t.dt ≠ s.dt → ∃ x, i = .ldDt x) ∧
    (t.st ≠ s.st → ∃ x, i = .ldSt x) ∧
    (t.fb ≠ s.fb → i.draws = true) ∧
    (t.draw ≠ s.draw → i.draws = true) ∧
    ((∃ a, t.readMem a ≠ s.readMem a) → i.stores = true) ∧
    (∀ k, t.keyDown k ≠ s.keyDown k → i.consumesKey = true ∧ t.keyDown k = false)

/-- O38. The `pc` after an instruction, by its class: a jump class sets it; a skip class adds 2 or 4; every other instruction
adds 2, but for an Fx0A that waits (R66; decisions D19, D29). -/
def Obligations.ProgramCounterFollowsTheClass : Prop :=
  ∀ (i : Instr) (s t : State), exec i s = .next t → i.jumps = false →
    s.pcNext t ∨ (i.skips = true ∧ s.pcSkip t true) ∨ (t.pc = s.pc ∧ t.status = .wait ∧ ∃ x, i = .ldKey x)

/-- O39. Every instruction but Cxnn ignores the step's random byte (R62): it does the same whatever the byte is (decision D23). -/
def Obligations.OnlyRndReadsTheRandomByte : Prop :=
  ∀ (i : Instr) (s t : State) (r : Byte), (∀ x nn, i ≠ .rnd x nn) → exec i s = .next t →
    exec i { s with rnd := r } = .next { t with rnd := r }

/-- O40. SP never wraps (R18): an instruction leaves it, a call raises it by one, a return lowers it by one; a call at 15 and a
return at 0 halt the core and leave it (decisions D11, D12). -/
def Obligations.StackPointerNeverWraps : Prop :=
  ∀ (i : Instr) (s : State), ∃ t, exec i s = .next t ∧
    (t.sp = s.sp ∨ (t.sp.val = s.sp.val + 1 ∧ ∃ nnn, i = .call nnn) ∨ (t.sp.val + 1 = s.sp.val ∧ i = .ret)) ∧
    ((∃ nnn, i = .call nnn) → s.sp.val = 15 → t.sp = s.sp ∧ t.status = .halt ∧ t.cause = .stackOverflow) ∧
    (i = .ret → s.sp.val = 0 → t.sp = s.sp ∧ t.status = .halt ∧ t.cause = .stackUnderflow)

/-- O41. Fifteen calls nest from the empty stack, and the sixteenth is `StackOverflow` (R17, R18; decisions D11, D12). -/
def Obligations.FifteenCallsNest : Prop :=
  ∀ (s : State) (calls : List Addr), s.sp.val = 0 → s.status = .run →
    (calls.length ≤ 15 → ∃ t, s.nestCalls calls = .next t ∧ t.sp.val = calls.length ∧ t.status = .run) ∧
    (calls.length = 16 → ∃ t, s.nestCalls calls = .next t ∧ t.sp.val = 15 ∧ t.status = .halt ∧
      t.cause = .stackOverflow)

/-- O42. A return clears no stack entry, and what stands in entries above SP (or in entry 0) is seen by no instruction: two states
that differ only there stay so under every event (R19, decision D26, for the entries above SP; that entry 0 is never read is R17,
decision D11: assumption 14). -/
def Obligations.StaleStackEntriesAreUnobservable : Prop :=
  (∀ s t : State, exec .ret s = .next t → t.stack = s.stack) ∧
  (∀ (c : Config) (e : Event) (s s' t : State), s.sameButStale s' → s.deliver c e = .next t →
    ∃ t', s'.deliver c e = .next t' ∧ t.sameButStale t')

/-- O43. A call followed by a return at its target resumes after the call, with the stack pointer and every register, memory byte
and pixel as before (R73, R75; decisions D10, D11). -/
def Obligations.ReturnResumesAfterTheCall : Prop :=
  ∀ (s : State) (nnn : Addr), s.sp.val ≠ 15 → ∃ t u, exec (.call nnn) s = .next t ∧ exec .ret t = .next u ∧
    s.pcNext u ∧ u = { s with pc := u.pc, stack := u.stack }

/-- O44. A block stored and loaded again restores V0 to Vx, whatever the registers held in between (R101, R102; that Fx55 leaves I
as it was is decision D36, assumption 14, and that addresses wrap is decision D7, assumption 10; the font region is stored to like any
other, D21). -/
def Obligations.LoadRestoresWhatStoreSaved : Prop :=
  ∀ (s : State) (x : Reg) (w : Vector Byte 16), ∃ t u, exec (.store x) s = .next t ∧
    exec (.load x) { t with v := w } = .next u ∧ ∀ r : Reg, r.toNat ≤ x.toNat → u.reg r = s.reg r

/-- O45. A byte pair stored over the next instruction is what the next fetch reads (R48; decisions D7, D21, D22). -/
def Obligations.StoredCodeIsFetched : Prop :=
  ∀ (s : State) (x r : Reg), r.toNat + 1 ≤ x.toNat → (s.pc.toNat + 2) % 4096 = (s.i.toNat + r.toNat) % 4096 →
    ∃ t, exec (.store x) s = .next t ∧ t.fetch.toNat = (s.reg r).toNat * 256 + (s.reg (r + 1)).toNat

/-- O46. The same sprite drawn twice at the same place restores the framebuffer, and the second draw reports a collision exactly
when some sprite bit fell on a pixel that was off (R107; its corner case says "if the sprite had any bit set on screen", which its
pseudocode bears out for pixels that were off: assumption 11). Clipping is decision D16, collision D17, the flag's place D15, the addresses of
the sprite D7, and the order of a row's bits is presumed: assumption 15. -/
def Obligations.DrawingTwiceRestoresTheScreen : Prop :=
  ∀ (s : State) (x y : Reg) (n : Nibble), ∃ t u, exec (.drw x y n) s = .next t ∧
    exec (.drw x y n) { t with v := s.v } = .next u ∧ u.fb = s.fb ∧
    (u.reg vf = 1 ↔
      ∃ r c, r < 32 ∧ c < 64 ∧ s.spriteBit x y n r c = true ∧ Framebuffer.pixel s.fb r c = false)

/-- O47. A second Ex9E on the same key with no press between does not skip (R109, R143; that Vx above 0x0F selects a
key by its low nibble is decision D18, assumption 14). -/
def Obligations.KeyPressIsConsumedOnce : Prop :=
  ∀ (s : State) (x : Reg), ∃ t u, exec (.skp x) s = .next t ∧ exec (.skp x) t = .next u ∧
    t.pcNext u ∧ u.key = t.key

/-! ## Faults, events, reset -/

/-- O48. A fatal fault is precise (R119): the state after it is the state before the step but for STATUS, CAUSE, the cleared DRAW,
the report and the model's two step fields; after it no step, tick or key event changes anything (decisions D12, D13). -/
def Obligations.FatalFaultsArePrecise : Prop :=
  ∀ (c : Config) (s t : State) (r : Byte), s.status ≠ .halt → s.deliver c (.step r) = .next t → t.status = .halt →
    (t.cause.code = 2 ∨ t.cause.code = 3) ∧ t.draw = false ∧
    t.outputs = s.outputs ++ [.fault t.cause s.pc s.fetch] ∧
    t = { s with draw := t.draw, status := .halt, cause := t.cause, outputs := t.outputs, rnd := r, loadable := false } ∧
    (∀ q, t.deliver c (.step q) = .next t) ∧ t.deliver c .timerTick = .next t ∧
    (∀ k, t.deliver c (.keyPress k) = .next t ∧ t.deliver c (.keyRelease k) = .next t)

/-- O49. What `Reset` leaves (R31, R136), from every state and for every configuration: the values are the spec's decisions D4,
D5 and D6, that every status accepts it is D12; the environment's pending events, what it has been told and its choice of random
bytes are the model's and stay, and a `Load` is allowed again (assumptions 1 to 5). -/
def Obligations.ResetLeavesTheResetState : Prop :=
  ∀ (c : Config) (s : State), c.wf = true → ∃ t, s.deliver c .reset = .next t ∧
    (∀ r, t.reg r = 0) ∧ t.i = 0 ∧ t.pc.toNat = c.loadAddr ∧ t.sp = 0 ∧ (∀ k : Fin 16, t.stack[k] = 0) ∧ t.dt = 0 ∧
    t.st = 0 ∧ (∀ r q, Framebuffer.pixel t.fb r q = false) ∧ (∀ k, t.keyDown k = false) ∧ t.draw = false ∧
    t.status = .run ∧ t.cause = .none ∧ (∀ a, a < 80 → some (t.readMem a) = c.font[a]?) ∧
    (∀ a, 80 ≤ a → a < 4096 → t.readMem a = 0) ∧ t.outputs = s.outputs ∧
    t.inputs = s.inputs ∧ t.rnd = s.rnd ∧ t.rndCount = s.rndCount ∧ t.loadable = true

/-- O50. `Load` (R139): the image stands from `LOAD_ADDR`, every other byte and every register is as it was; no further `Load` is
allowed (decision D27; `loadable` is the model's, assumption 4). -/
def Obligations.LoadCopiesTheImage : Prop :=
  ∀ (c : Config) (s : State) (image : List Byte), c.wf = true → s.loadable = true →
    image.length ≤ 4096 - c.loadAddr → ∃ t, s.deliver c (.load image) = .next t ∧
      t = { s with mem := t.mem, loadable := false } ∧
      (∀ (j : Nat) (h : j < image.length), t.readMem (c.loadAddr + j) = image[j]) ∧
      (∀ a, a < 4096 → a < c.loadAddr ∨ c.loadAddr + image.length ≤ a → t.readMem a = s.readMem a)

/-- O51. An image one byte too long, or longer, has no successor (R140), and so has a `Load` once the boot is over (R138, decision
D27): every `Load` with `loadable` false is refused, a `Load` or a step makes it false, and no event but `Reset` makes it true again
(the two stops and the flag are the model's: assumptions 4, 9). -/
def Obligations.LoadsThatHaveNoSuccessor : Prop :=
  (∀ (c : Config) (s : State) (image : List Byte), c.wf = true → s.loadable = true →
    4096 - c.loadAddr < image.length → s.deliver c (.load image) = .fault .imageTooLarge) ∧
  (∀ (c : Config) (s t : State) (e : Event), e.isLoad = true ∨ (∃ r, e = .step r) → s.status ≠ .halt →
    s.deliver c e = .next t → ∀ image, t.deliver c (.load image) = .refused .loadAfterBoot) ∧
  (∀ (c : Config) (s : State) (image : List Byte), s.loadable = false →
    s.deliver c (.load image) = .refused .loadAfterBoot) ∧
  (∀ (c : Config) (s t : State) (e : Event), e ≠ .reset → s.loadable = false → s.deliver c e = .next t →
    t.loadable = false)

/-- O52. `TimerTick` (R125, R126): each timer falls by one down to 0, `SoundTrigger` is emitted exactly when ST goes from 1 to 0,
nothing else changes, and in HALT nothing at all (decisions D12, D20). -/
def Obligations.TimerTickRule : Prop :=
  ∀ (c : Config) (s : State), ∃ t, s.deliver c .timerTick = .next t ∧
    t = { s with dt := t.dt, st := t.st, outputs := t.outputs } ∧
    (s.status = .halt → t = s) ∧
    (s.status ≠ .halt → t.dt.toNat = s.dt.toNat - 1 ∧ t.st.toNat = s.st.toNat - 1 ∧
      t.outputs = s.outputs ++ (if s.st.toNat = 1 then [.soundTrigger] else []))

/-- O53. `KeyPress` and `KeyRelease` (R128, R129) outside HALT: the one cell becomes down, or up, whatever it was, and nothing
else changes (decision D30). -/
def Obligations.KeyEventRules : Prop :=
  ∀ (c : Config) (s : State) (k : Key), s.status ≠ .halt →
    (∃ t, s.deliver c (.keyPress k) = .next t ∧ t = { s with key := t.key } ∧ t.keyDown k = true ∧
      ∀ j, j ≠ k → t.keyDown j = s.keyDown j) ∧
    (∃ t, s.deliver c (.keyRelease k) = .next t ∧ t = { s with key := t.key } ∧ t.keyDown k = false ∧
      ∀ j, j ≠ k → t.keyDown j = s.keyDown j)

/-! ## The invariant -/

/-- O54. The reset state, and what `Reset` leaves of any state, is coherent (that STATUS is RUN and CAUSE 0 at reset is decision D5:
assumption 1). -/
def Obligations.ResetIsCoherent : Prop :=
  State.reset.coherent = true ∧ ∀ (c : Config) (s : State), (s.resetFor c).coherent = true

/-- O55. Every move of the machine keeps a state coherent: memory canonical, no CAUSE outside HALT, an Fx0A at `pc` in WAIT, and in
HALT the instruction that faulted at `pc` with SP and CAUSE as it left them (HALT and CAUSE are decisions D12 and D13, the wait is
decision D19, the SP at which a fault occurs D11: assumptions 14, 16; that `loadable` is false in WAIT and HALT is the model's:
assumption 4). -/
def Obligations.StepKeepsCoherence : Prop :=
  ∀ s t : State, s.coherent = true → step s = .next t → t.coherent = true

/-- O56. In WAIT a step is an Fx0A step again, and the timers and keys work as in RUN (R70; decision D19). -/
def Obligations.WaitingStepsRunTheKeyWait : Prop :=
  ∀ (c : Config) (s : State), s.coherent = true → s.status = .wait →
    (∃ x, decode s.fetch = .ok (.ldKey x) ∧
      ∀ r, s.deliver c (.step r) = exec (.ldKey x) { s with draw := false, rnd := r, loadable := false }) ∧
    (∃ t u, s.deliver c .timerTick = .next t ∧ { s with status := .run }.deliver c .timerTick = .next u ∧
      t = { u with status := .wait }) ∧
    (∀ k, ∃ t u, s.deliver c (.keyPress k) = .next t ∧ { s with status := .run }.deliver c (.keyPress k) = .next u ∧
      t = { u with status := .wait }) ∧
    (∀ k, ∃ t u, s.deliver c (.keyRelease k) = .next t ∧
      { s with status := .run }.deliver c (.keyRelease k) = .next u ∧ t = { u with status := .wait })

/-- O57. A press makes the next step leave WAIT, unless a release of the same key, the only one down, comes first (R135). -/
def Obligations.PressEndsTheWait : Prop :=
  (∀ (c : Config) (s : State) (k : Key) (r : Byte), s.coherent = true → s.status = .wait →
    ∃ t u, s.deliver c (.keyPress k) = .next t ∧ t.deliver c (.step r) = .next u ∧ u.status = .run ∧ s.pcNext u) ∧
  (∀ (c : Config) (s : State) (k : Key) (r : Byte), s.coherent = true → s.status = .wait →
    (∀ j, s.keyDown j = false) →
    ∃ t u w, s.deliver c (.keyPress k) = .next t ∧ t.deliver c (.keyRelease k) = .next u ∧
      u.deliver c (.step r) = .next w ∧ w.status = .wait ∧ w.pc = s.pc)

end
end

