-- ==== Sys2Proof/Laws/State.lean ====
section
/-! SUPPORT. What each update of the state leaves in each field, one lemma per field per update. -/

namespace Sys2Proof.Machine

@[simp] theorem State.setReg_v (s : State) (x : Reg) (b : Byte) : (s.setReg x b).v = s.v.set x.toNat b x.isLt := rfl
@[simp] theorem State.setReg_i (s : State) (x : Reg) (b : Byte) : (s.setReg x b).i = s.i := rfl
@[simp] theorem State.setReg_pc (s : State) (x : Reg) (b : Byte) : (s.setReg x b).pc = s.pc := rfl
@[simp] theorem State.setReg_sp (s : State) (x : Reg) (b : Byte) : (s.setReg x b).sp = s.sp := rfl
@[simp] theorem State.setReg_stack (s : State) (x : Reg) (b : Byte) : (s.setReg x b).stack = s.stack := rfl
@[simp] theorem State.setReg_dt (s : State) (x : Reg) (b : Byte) : (s.setReg x b).dt = s.dt := rfl
@[simp] theorem State.setReg_st (s : State) (x : Reg) (b : Byte) : (s.setReg x b).st = s.st := rfl
@[simp] theorem State.setReg_fb (s : State) (x : Reg) (b : Byte) : (s.setReg x b).fb = s.fb := rfl
@[simp] theorem State.setReg_key (s : State) (x : Reg) (b : Byte) : (s.setReg x b).key = s.key := rfl
@[simp] theorem State.setReg_draw (s : State) (x : Reg) (b : Byte) : (s.setReg x b).draw = s.draw := rfl
@[simp] theorem State.setReg_status (s : State) (x : Reg) (b : Byte) : (s.setReg x b).status = s.status := rfl
@[simp] theorem State.setReg_cause (s : State) (x : Reg) (b : Byte) : (s.setReg x b).cause = s.cause := rfl
@[simp] theorem State.setReg_mem (s : State) (x : Reg) (b : Byte) : (s.setReg x b).mem = s.mem := rfl
@[simp] theorem State.setReg_rnd (s : State) (x : Reg) (b : Byte) : (s.setReg x b).rnd = s.rnd := rfl
@[simp] theorem State.setReg_rndCount (s : State) (x : Reg) (b : Byte) : (s.setReg x b).rndCount = s.rndCount := rfl
@[simp] theorem State.setReg_loadable (s : State) (x : Reg) (b : Byte) : (s.setReg x b).loadable = s.loadable := rfl
@[simp] theorem State.setReg_inputs (s : State) (x : Reg) (b : Byte) : (s.setReg x b).inputs = s.inputs := rfl
@[simp] theorem State.setReg_outputs (s : State) (x : Reg) (b : Byte) : (s.setReg x b).outputs = s.outputs := rfl

@[simp] theorem State.advance_v (s : State) : (s.advance).v = s.v := rfl
@[simp] theorem State.advance_i (s : State) : (s.advance).i = s.i := rfl
@[simp] theorem State.advance_pc (s : State) : (s.advance).pc = s.pc + 2 := rfl
@[simp] theorem State.advance_sp (s : State) : (s.advance).sp = s.sp := rfl
@[simp] theorem State.advance_stack (s : State) : (s.advance).stack = s.stack := rfl
@[simp] theorem State.advance_dt (s : State) : (s.advance).dt = s.dt := rfl
@[simp] theorem State.advance_st (s : State) : (s.advance).st = s.st := rfl
@[simp] theorem State.advance_fb (s : State) : (s.advance).fb = s.fb := rfl
@[simp] theorem State.advance_key (s : State) : (s.advance).key = s.key := rfl
@[simp] theorem State.advance_draw (s : State) : (s.advance).draw = s.draw := rfl
@[simp] theorem State.advance_status (s : State) : (s.advance).status = s.status := rfl
@[simp] theorem State.advance_cause (s : State) : (s.advance).cause = s.cause := rfl
@[simp] theorem State.advance_mem (s : State) : (s.advance).mem = s.mem := rfl
@[simp] theorem State.advance_rnd (s : State) : (s.advance).rnd = s.rnd := rfl
@[simp] theorem State.advance_rndCount (s : State) : (s.advance).rndCount = s.rndCount := rfl
@[simp] theorem State.advance_loadable (s : State) : (s.advance).loadable = s.loadable := rfl
@[simp] theorem State.advance_inputs (s : State) : (s.advance).inputs = s.inputs := rfl
@[simp] theorem State.advance_outputs (s : State) : (s.advance).outputs = s.outputs := rfl

@[simp] theorem State.skipIf_v (s : State) (c : Bool) : (s.skipIf c).v = s.v := rfl
@[simp] theorem State.skipIf_i (s : State) (c : Bool) : (s.skipIf c).i = s.i := rfl
@[simp] theorem State.skipIf_pc (s : State) (c : Bool) : (s.skipIf c).pc = s.pc + (if c then 4 else 2) := rfl
@[simp] theorem State.skipIf_sp (s : State) (c : Bool) : (s.skipIf c).sp = s.sp := rfl
@[simp] theorem State.skipIf_stack (s : State) (c : Bool) : (s.skipIf c).stack = s.stack := rfl
@[simp] theorem State.skipIf_dt (s : State) (c : Bool) : (s.skipIf c).dt = s.dt := rfl
@[simp] theorem State.skipIf_st (s : State) (c : Bool) : (s.skipIf c).st = s.st := rfl
@[simp] theorem State.skipIf_fb (s : State) (c : Bool) : (s.skipIf c).fb = s.fb := rfl
@[simp] theorem State.skipIf_key (s : State) (c : Bool) : (s.skipIf c).key = s.key := rfl
@[simp] theorem State.skipIf_draw (s : State) (c : Bool) : (s.skipIf c).draw = s.draw := rfl
@[simp] theorem State.skipIf_status (s : State) (c : Bool) : (s.skipIf c).status = s.status := rfl
@[simp] theorem State.skipIf_cause (s : State) (c : Bool) : (s.skipIf c).cause = s.cause := rfl
@[simp] theorem State.skipIf_mem (s : State) (c : Bool) : (s.skipIf c).mem = s.mem := rfl
@[simp] theorem State.skipIf_rnd (s : State) (c : Bool) : (s.skipIf c).rnd = s.rnd := rfl
@[simp] theorem State.skipIf_rndCount (s : State) (c : Bool) : (s.skipIf c).rndCount = s.rndCount := rfl
@[simp] theorem State.skipIf_loadable (s : State) (c : Bool) : (s.skipIf c).loadable = s.loadable := rfl
@[simp] theorem State.skipIf_inputs (s : State) (c : Bool) : (s.skipIf c).inputs = s.inputs := rfl
@[simp] theorem State.skipIf_outputs (s : State) (c : Bool) : (s.skipIf c).outputs = s.outputs := rfl

@[simp] theorem State.jumpTo_v (s : State) (t : Word) : (s.jumpTo t).v = s.v := rfl
@[simp] theorem State.jumpTo_i (s : State) (t : Word) : (s.jumpTo t).i = s.i := rfl
@[simp] theorem State.jumpTo_pc (s : State) (t : Word) : (s.jumpTo t).pc = t := rfl
@[simp] theorem State.jumpTo_sp (s : State) (t : Word) : (s.jumpTo t).sp = s.sp := rfl
@[simp] theorem State.jumpTo_stack (s : State) (t : Word) : (s.jumpTo t).stack = s.stack := rfl
@[simp] theorem State.jumpTo_dt (s : State) (t : Word) : (s.jumpTo t).dt = s.dt := rfl
@[simp] theorem State.jumpTo_st (s : State) (t : Word) : (s.jumpTo t).st = s.st := rfl
@[simp] theorem State.jumpTo_fb (s : State) (t : Word) : (s.jumpTo t).fb = s.fb := rfl
@[simp] theorem State.jumpTo_key (s : State) (t : Word) : (s.jumpTo t).key = s.key := rfl
@[simp] theorem State.jumpTo_draw (s : State) (t : Word) : (s.jumpTo t).draw = s.draw := rfl
@[simp] theorem State.jumpTo_status (s : State) (t : Word) : (s.jumpTo t).status = s.status := rfl
@[simp] theorem State.jumpTo_cause (s : State) (t : Word) : (s.jumpTo t).cause = s.cause := rfl
@[simp] theorem State.jumpTo_mem (s : State) (t : Word) : (s.jumpTo t).mem = s.mem := rfl
@[simp] theorem State.jumpTo_rnd (s : State) (t : Word) : (s.jumpTo t).rnd = s.rnd := rfl
@[simp] theorem State.jumpTo_rndCount (s : State) (t : Word) : (s.jumpTo t).rndCount = s.rndCount := rfl
@[simp] theorem State.jumpTo_loadable (s : State) (t : Word) : (s.jumpTo t).loadable = s.loadable := rfl
@[simp] theorem State.jumpTo_inputs (s : State) (t : Word) : (s.jumpTo t).inputs = s.inputs := rfl
@[simp] theorem State.jumpTo_outputs (s : State) (t : Word) : (s.jumpTo t).outputs = s.outputs := rfl

@[simp] theorem State.writeMem_v (s : State) (a : Nat) (bs : List Byte) : (s.writeMem a bs).v = s.v := rfl
@[simp] theorem State.writeMem_i (s : State) (a : Nat) (bs : List Byte) : (s.writeMem a bs).i = s.i := rfl
@[simp] theorem State.writeMem_pc (s : State) (a : Nat) (bs : List Byte) : (s.writeMem a bs).pc = s.pc := rfl
@[simp] theorem State.writeMem_sp (s : State) (a : Nat) (bs : List Byte) : (s.writeMem a bs).sp = s.sp := rfl
@[simp] theorem State.writeMem_stack (s : State) (a : Nat) (bs : List Byte) : (s.writeMem a bs).stack = s.stack := rfl
@[simp] theorem State.writeMem_dt (s : State) (a : Nat) (bs : List Byte) : (s.writeMem a bs).dt = s.dt := rfl
@[simp] theorem State.writeMem_st (s : State) (a : Nat) (bs : List Byte) : (s.writeMem a bs).st = s.st := rfl
@[simp] theorem State.writeMem_fb (s : State) (a : Nat) (bs : List Byte) : (s.writeMem a bs).fb = s.fb := rfl
@[simp] theorem State.writeMem_key (s : State) (a : Nat) (bs : List Byte) : (s.writeMem a bs).key = s.key := rfl
@[simp] theorem State.writeMem_draw (s : State) (a : Nat) (bs : List Byte) : (s.writeMem a bs).draw = s.draw := rfl
@[simp] theorem State.writeMem_status (s : State) (a : Nat) (bs : List Byte) : (s.writeMem a bs).status = s.status := rfl
@[simp] theorem State.writeMem_cause (s : State) (a : Nat) (bs : List Byte) : (s.writeMem a bs).cause = s.cause := rfl
@[simp] theorem State.writeMem_mem (s : State) (a : Nat) (bs : List Byte) : (s.writeMem a bs).mem = s.mem.writeBytes a bs := rfl
@[simp] theorem State.writeMem_rnd (s : State) (a : Nat) (bs : List Byte) : (s.writeMem a bs).rnd = s.rnd := rfl
@[simp] theorem State.writeMem_rndCount (s : State) (a : Nat) (bs : List Byte) : (s.writeMem a bs).rndCount = s.rndCount := rfl
@[simp] theorem State.writeMem_loadable (s : State) (a : Nat) (bs : List Byte) : (s.writeMem a bs).loadable = s.loadable := rfl
@[simp] theorem State.writeMem_inputs (s : State) (a : Nat) (bs : List Byte) : (s.writeMem a bs).inputs = s.inputs := rfl
@[simp] theorem State.writeMem_outputs (s : State) (a : Nat) (bs : List Byte) : (s.writeMem a bs).outputs = s.outputs := rfl

@[simp] theorem State.push_v (s : State) (w : Word) : (s.push w).v = s.v := rfl
@[simp] theorem State.push_i (s : State) (w : Word) : (s.push w).i = s.i := rfl
@[simp] theorem State.push_pc (s : State) (w : Word) : (s.push w).pc = s.pc := rfl
@[simp] theorem State.push_sp (s : State) (w : Word) : (s.push w).sp = s.sp + 1 := rfl
@[simp] theorem State.push_stack (s : State) (w : Word) : (s.push w).stack = s.stack.set (s.sp + 1).val w (s.sp + 1).isLt := rfl
@[simp] theorem State.push_dt (s : State) (w : Word) : (s.push w).dt = s.dt := rfl
@[simp] theorem State.push_st (s : State) (w : Word) : (s.push w).st = s.st := rfl
@[simp] theorem State.push_fb (s : State) (w : Word) : (s.push w).fb = s.fb := rfl
@[simp] theorem State.push_key (s : State) (w : Word) : (s.push w).key = s.key := rfl
@[simp] theorem State.push_draw (s : State) (w : Word) : (s.push w).draw = s.draw := rfl
@[simp] theorem State.push_status (s : State) (w : Word) : (s.push w).status = s.status := rfl
@[simp] theorem State.push_cause (s : State) (w : Word) : (s.push w).cause = s.cause := rfl
@[simp] theorem State.push_mem (s : State) (w : Word) : (s.push w).mem = s.mem := rfl
@[simp] theorem State.push_rnd (s : State) (w : Word) : (s.push w).rnd = s.rnd := rfl
@[simp] theorem State.push_rndCount (s : State) (w : Word) : (s.push w).rndCount = s.rndCount := rfl
@[simp] theorem State.push_loadable (s : State) (w : Word) : (s.push w).loadable = s.loadable := rfl
@[simp] theorem State.push_inputs (s : State) (w : Word) : (s.push w).inputs = s.inputs := rfl
@[simp] theorem State.push_outputs (s : State) (w : Word) : (s.push w).outputs = s.outputs := rfl

@[simp] theorem State.drop_v (s : State) : (s.drop).v = s.v := rfl
@[simp] theorem State.drop_i (s : State) : (s.drop).i = s.i := rfl
@[simp] theorem State.drop_pc (s : State) : (s.drop).pc = s.pc := rfl
@[simp] theorem State.drop_sp (s : State) : (s.drop).sp = s.sp - 1 := rfl
@[simp] theorem State.drop_stack (s : State) : (s.drop).stack = s.stack := rfl
@[simp] theorem State.drop_dt (s : State) : (s.drop).dt = s.dt := rfl
@[simp] theorem State.drop_st (s : State) : (s.drop).st = s.st := rfl
@[simp] theorem State.drop_fb (s : State) : (s.drop).fb = s.fb := rfl
@[simp] theorem State.drop_key (s : State) : (s.drop).key = s.key := rfl
@[simp] theorem State.drop_draw (s : State) : (s.drop).draw = s.draw := rfl
@[simp] theorem State.drop_status (s : State) : (s.drop).status = s.status := rfl
@[simp] theorem State.drop_cause (s : State) : (s.drop).cause = s.cause := rfl
@[simp] theorem State.drop_mem (s : State) : (s.drop).mem = s.mem := rfl
@[simp] theorem State.drop_rnd (s : State) : (s.drop).rnd = s.rnd := rfl
@[simp] theorem State.drop_rndCount (s : State) : (s.drop).rndCount = s.rndCount := rfl
@[simp] theorem State.drop_loadable (s : State) : (s.drop).loadable = s.loadable := rfl
@[simp] theorem State.drop_inputs (s : State) : (s.drop).inputs = s.inputs := rfl
@[simp] theorem State.drop_outputs (s : State) : (s.drop).outputs = s.outputs := rfl

@[simp] theorem State.setKey_v (s : State) (k : Key) (b : Bool) : (s.setKey k b).v = s.v := rfl
@[simp] theorem State.setKey_i (s : State) (k : Key) (b : Bool) : (s.setKey k b).i = s.i := rfl
@[simp] theorem State.setKey_pc (s : State) (k : Key) (b : Bool) : (s.setKey k b).pc = s.pc := rfl
@[simp] theorem State.setKey_sp (s : State) (k : Key) (b : Bool) : (s.setKey k b).sp = s.sp := rfl
@[simp] theorem State.setKey_stack (s : State) (k : Key) (b : Bool) : (s.setKey k b).stack = s.stack := rfl
@[simp] theorem State.setKey_dt (s : State) (k : Key) (b : Bool) : (s.setKey k b).dt = s.dt := rfl
@[simp] theorem State.setKey_st (s : State) (k : Key) (b : Bool) : (s.setKey k b).st = s.st := rfl
@[simp] theorem State.setKey_fb (s : State) (k : Key) (b : Bool) : (s.setKey k b).fb = s.fb := rfl
@[simp] theorem State.setKey_key (s : State) (k : Key) (b : Bool) : (s.setKey k b).key = s.key.set k.toNat b k.isLt := rfl
@[simp] theorem State.setKey_draw (s : State) (k : Key) (b : Bool) : (s.setKey k b).draw = s.draw := rfl
@[simp] theorem State.setKey_status (s : State) (k : Key) (b : Bool) : (s.setKey k b).status = s.status := rfl
@[simp] theorem State.setKey_cause (s : State) (k : Key) (b : Bool) : (s.setKey k b).cause = s.cause := rfl
@[simp] theorem State.setKey_mem (s : State) (k : Key) (b : Bool) : (s.setKey k b).mem = s.mem := rfl
@[simp] theorem State.setKey_rnd (s : State) (k : Key) (b : Bool) : (s.setKey k b).rnd = s.rnd := rfl
@[simp] theorem State.setKey_rndCount (s : State) (k : Key) (b : Bool) : (s.setKey k b).rndCount = s.rndCount := rfl
@[simp] theorem State.setKey_loadable (s : State) (k : Key) (b : Bool) : (s.setKey k b).loadable = s.loadable := rfl
@[simp] theorem State.setKey_inputs (s : State) (k : Key) (b : Bool) : (s.setKey k b).inputs = s.inputs := rfl
@[simp] theorem State.setKey_outputs (s : State) (k : Key) (b : Bool) : (s.setKey k b).outputs = s.outputs := rfl

@[simp] theorem State.emit_v (s : State) (e : Output) : (s.emit e).v = s.v := rfl
@[simp] theorem State.emit_i (s : State) (e : Output) : (s.emit e).i = s.i := rfl
@[simp] theorem State.emit_pc (s : State) (e : Output) : (s.emit e).pc = s.pc := rfl
@[simp] theorem State.emit_sp (s : State) (e : Output) : (s.emit e).sp = s.sp := rfl
@[simp] theorem State.emit_stack (s : State) (e : Output) : (s.emit e).stack = s.stack := rfl
@[simp] theorem State.emit_dt (s : State) (e : Output) : (s.emit e).dt = s.dt := rfl
@[simp] theorem State.emit_st (s : State) (e : Output) : (s.emit e).st = s.st := rfl
@[simp] theorem State.emit_fb (s : State) (e : Output) : (s.emit e).fb = s.fb := rfl
@[simp] theorem State.emit_key (s : State) (e : Output) : (s.emit e).key = s.key := rfl
@[simp] theorem State.emit_draw (s : State) (e : Output) : (s.emit e).draw = s.draw := rfl
@[simp] theorem State.emit_status (s : State) (e : Output) : (s.emit e).status = s.status := rfl
@[simp] theorem State.emit_cause (s : State) (e : Output) : (s.emit e).cause = s.cause := rfl
@[simp] theorem State.emit_mem (s : State) (e : Output) : (s.emit e).mem = s.mem := rfl
@[simp] theorem State.emit_rnd (s : State) (e : Output) : (s.emit e).rnd = s.rnd := rfl
@[simp] theorem State.emit_rndCount (s : State) (e : Output) : (s.emit e).rndCount = s.rndCount := rfl
@[simp] theorem State.emit_loadable (s : State) (e : Output) : (s.emit e).loadable = s.loadable := rfl
@[simp] theorem State.emit_inputs (s : State) (e : Output) : (s.emit e).inputs = s.inputs := rfl
@[simp] theorem State.emit_outputs (s : State) (e : Output) : (s.emit e).outputs = s.outputs ++ [e] := rfl

@[simp] theorem State.raise_v (s : State) (c : Cause) (op : Word) : (s.raise c op).v = s.v := rfl
@[simp] theorem State.raise_i (s : State) (c : Cause) (op : Word) : (s.raise c op).i = s.i := rfl
@[simp] theorem State.raise_pc (s : State) (c : Cause) (op : Word) : (s.raise c op).pc = s.pc := rfl
@[simp] theorem State.raise_sp (s : State) (c : Cause) (op : Word) : (s.raise c op).sp = s.sp := rfl
@[simp] theorem State.raise_stack (s : State) (c : Cause) (op : Word) : (s.raise c op).stack = s.stack := rfl
@[simp] theorem State.raise_dt (s : State) (c : Cause) (op : Word) : (s.raise c op).dt = s.dt := rfl
@[simp] theorem State.raise_st (s : State) (c : Cause) (op : Word) : (s.raise c op).st = s.st := rfl
@[simp] theorem State.raise_fb (s : State) (c : Cause) (op : Word) : (s.raise c op).fb = s.fb := rfl
@[simp] theorem State.raise_key (s : State) (c : Cause) (op : Word) : (s.raise c op).key = s.key := rfl
@[simp] theorem State.raise_draw (s : State) (c : Cause) (op : Word) : (s.raise c op).draw = s.draw := rfl
@[simp] theorem State.raise_status (s : State) (c : Cause) (op : Word) : (s.raise c op).status = .halt := rfl
@[simp] theorem State.raise_cause (s : State) (c : Cause) (op : Word) : (s.raise c op).cause = c := rfl
@[simp] theorem State.raise_mem (s : State) (c : Cause) (op : Word) : (s.raise c op).mem = s.mem := rfl
@[simp] theorem State.raise_rnd (s : State) (c : Cause) (op : Word) : (s.raise c op).rnd = s.rnd := rfl
@[simp] theorem State.raise_rndCount (s : State) (c : Cause) (op : Word) : (s.raise c op).rndCount = s.rndCount := rfl
@[simp] theorem State.raise_loadable (s : State) (c : Cause) (op : Word) : (s.raise c op).loadable = s.loadable := rfl
@[simp] theorem State.raise_inputs (s : State) (c : Cause) (op : Word) : (s.raise c op).inputs = s.inputs := rfl
@[simp] theorem State.raise_outputs (s : State) (c : Cause) (op : Word) : (s.raise c op).outputs = s.outputs ++ [.fault c s.pc op] := rfl

@[simp] theorem State.beginStep_v (s : State) (r : Byte) : (s.beginStep r).v = s.v := rfl
@[simp] theorem State.beginStep_i (s : State) (r : Byte) : (s.beginStep r).i = s.i := rfl
@[simp] theorem State.beginStep_pc (s : State) (r : Byte) : (s.beginStep r).pc = s.pc := rfl
@[simp] theorem State.beginStep_sp (s : State) (r : Byte) : (s.beginStep r).sp = s.sp := rfl
@[simp] theorem State.beginStep_stack (s : State) (r : Byte) : (s.beginStep r).stack = s.stack := rfl
@[simp] theorem State.beginStep_dt (s : State) (r : Byte) : (s.beginStep r).dt = s.dt := rfl
@[simp] theorem State.beginStep_st (s : State) (r : Byte) : (s.beginStep r).st = s.st := rfl
@[simp] theorem State.beginStep_fb (s : State) (r : Byte) : (s.beginStep r).fb = s.fb := rfl
@[simp] theorem State.beginStep_key (s : State) (r : Byte) : (s.beginStep r).key = s.key := rfl
@[simp] theorem State.beginStep_draw (s : State) (r : Byte) : (s.beginStep r).draw = false := rfl
@[simp] theorem State.beginStep_status (s : State) (r : Byte) : (s.beginStep r).status = s.status := rfl
@[simp] theorem State.beginStep_cause (s : State) (r : Byte) : (s.beginStep r).cause = s.cause := rfl
@[simp] theorem State.beginStep_mem (s : State) (r : Byte) : (s.beginStep r).mem = s.mem := rfl
@[simp] theorem State.beginStep_rnd (s : State) (r : Byte) : (s.beginStep r).rnd = r := rfl
@[simp] theorem State.beginStep_rndCount (s : State) (r : Byte) : (s.beginStep r).rndCount = s.rndCount := rfl
@[simp] theorem State.beginStep_loadable (s : State) (r : Byte) : (s.beginStep r).loadable = false := rfl
@[simp] theorem State.beginStep_inputs (s : State) (r : Byte) : (s.beginStep r).inputs = s.inputs := rfl
@[simp] theorem State.beginStep_outputs (s : State) (r : Byte) : (s.beginStep r).outputs = s.outputs := rfl

@[simp] theorem State.setResult_v (s : State) (x : Reg) (b : Byte) (f : Bool) : (s.setResult x b f).v = ((s.setReg x b).setReg vf (flagByte f)).v := rfl
@[simp] theorem State.setResult_i (s : State) (x : Reg) (b : Byte) (f : Bool) : (s.setResult x b f).i = s.i := rfl
@[simp] theorem State.setResult_pc (s : State) (x : Reg) (b : Byte) (f : Bool) : (s.setResult x b f).pc = s.pc := rfl
@[simp] theorem State.setResult_sp (s : State) (x : Reg) (b : Byte) (f : Bool) : (s.setResult x b f).sp = s.sp := rfl
@[simp] theorem State.setResult_stack (s : State) (x : Reg) (b : Byte) (f : Bool) : (s.setResult x b f).stack = s.stack := rfl
@[simp] theorem State.setResult_dt (s : State) (x : Reg) (b : Byte) (f : Bool) : (s.setResult x b f).dt = s.dt := rfl
@[simp] theorem State.setResult_st (s : State) (x : Reg) (b : Byte) (f : Bool) : (s.setResult x b f).st = s.st := rfl
@[simp] theorem State.setResult_fb (s : State) (x : Reg) (b : Byte) (f : Bool) : (s.setResult x b f).fb = s.fb := rfl
@[simp] theorem State.setResult_key (s : State) (x : Reg) (b : Byte) (f : Bool) : (s.setResult x b f).key = s.key := rfl
@[simp] theorem State.setResult_draw (s : State) (x : Reg) (b : Byte) (f : Bool) : (s.setResult x b f).draw = s.draw := rfl
@[simp] theorem State.setResult_status (s : State) (x : Reg) (b : Byte) (f : Bool) : (s.setResult x b f).status = s.status := rfl
@[simp] theorem State.setResult_cause (s : State) (x : Reg) (b : Byte) (f : Bool) : (s.setResult x b f).cause = s.cause := rfl
@[simp] theorem State.setResult_mem (s : State) (x : Reg) (b : Byte) (f : Bool) : (s.setResult x b f).mem = s.mem := rfl
@[simp] theorem State.setResult_rnd (s : State) (x : Reg) (b : Byte) (f : Bool) : (s.setResult x b f).rnd = s.rnd := rfl
@[simp] theorem State.setResult_rndCount (s : State) (x : Reg) (b : Byte) (f : Bool) : (s.setResult x b f).rndCount = s.rndCount := rfl
@[simp] theorem State.setResult_loadable (s : State) (x : Reg) (b : Byte) (f : Bool) : (s.setResult x b f).loadable = s.loadable := rfl
@[simp] theorem State.setResult_inputs (s : State) (x : Reg) (b : Byte) (f : Bool) : (s.setResult x b f).inputs = s.inputs := rfl
@[simp] theorem State.setResult_outputs (s : State) (x : Reg) (b : Byte) (f : Bool) : (s.setResult x b f).outputs = s.outputs := rfl

@[simp] theorem State.setI_v (s : State) (w : Word) : (s.setI w).v = s.v := rfl
@[simp] theorem State.setI_i (s : State) (w : Word) : (s.setI w).i = w := rfl
@[simp] theorem State.setI_pc (s : State) (w : Word) : (s.setI w).pc = s.pc := rfl
@[simp] theorem State.setI_sp (s : State) (w : Word) : (s.setI w).sp = s.sp := rfl
@[simp] theorem State.setI_stack (s : State) (w : Word) : (s.setI w).stack = s.stack := rfl
@[simp] theorem State.setI_dt (s : State) (w : Word) : (s.setI w).dt = s.dt := rfl
@[simp] theorem State.setI_st (s : State) (w : Word) : (s.setI w).st = s.st := rfl
@[simp] theorem State.setI_fb (s : State) (w : Word) : (s.setI w).fb = s.fb := rfl
@[simp] theorem State.setI_key (s : State) (w : Word) : (s.setI w).key = s.key := rfl
@[simp] theorem State.setI_draw (s : State) (w : Word) : (s.setI w).draw = s.draw := rfl
@[simp] theorem State.setI_status (s : State) (w : Word) : (s.setI w).status = s.status := rfl
@[simp] theorem State.setI_cause (s : State) (w : Word) : (s.setI w).cause = s.cause := rfl
@[simp] theorem State.setI_mem (s : State) (w : Word) : (s.setI w).mem = s.mem := rfl
@[simp] theorem State.setI_rnd (s : State) (w : Word) : (s.setI w).rnd = s.rnd := rfl
@[simp] theorem State.setI_rndCount (s : State) (w : Word) : (s.setI w).rndCount = s.rndCount := rfl
@[simp] theorem State.setI_loadable (s : State) (w : Word) : (s.setI w).loadable = s.loadable := rfl
@[simp] theorem State.setI_inputs (s : State) (w : Word) : (s.setI w).inputs = s.inputs := rfl
@[simp] theorem State.setI_outputs (s : State) (w : Word) : (s.setI w).outputs = s.outputs := rfl

@[simp] theorem State.setStatus_v (s : State) (t : Status) : (s.setStatus t).v = s.v := rfl
@[simp] theorem State.setStatus_i (s : State) (t : Status) : (s.setStatus t).i = s.i := rfl
@[simp] theorem State.setStatus_pc (s : State) (t : Status) : (s.setStatus t).pc = s.pc := rfl
@[simp] theorem State.setStatus_sp (s : State) (t : Status) : (s.setStatus t).sp = s.sp := rfl
@[simp] theorem State.setStatus_stack (s : State) (t : Status) : (s.setStatus t).stack = s.stack := rfl
@[simp] theorem State.setStatus_dt (s : State) (t : Status) : (s.setStatus t).dt = s.dt := rfl
@[simp] theorem State.setStatus_st (s : State) (t : Status) : (s.setStatus t).st = s.st := rfl
@[simp] theorem State.setStatus_fb (s : State) (t : Status) : (s.setStatus t).fb = s.fb := rfl
@[simp] theorem State.setStatus_key (s : State) (t : Status) : (s.setStatus t).key = s.key := rfl
@[simp] theorem State.setStatus_draw (s : State) (t : Status) : (s.setStatus t).draw = s.draw := rfl
@[simp] theorem State.setStatus_status (s : State) (t : Status) : (s.setStatus t).status = t := rfl
@[simp] theorem State.setStatus_cause (s : State) (t : Status) : (s.setStatus t).cause = s.cause := rfl
@[simp] theorem State.setStatus_mem (s : State) (t : Status) : (s.setStatus t).mem = s.mem := rfl
@[simp] theorem State.setStatus_rnd (s : State) (t : Status) : (s.setStatus t).rnd = s.rnd := rfl
@[simp] theorem State.setStatus_rndCount (s : State) (t : Status) : (s.setStatus t).rndCount = s.rndCount := rfl
@[simp] theorem State.setStatus_loadable (s : State) (t : Status) : (s.setStatus t).loadable = s.loadable := rfl
@[simp] theorem State.setStatus_inputs (s : State) (t : Status) : (s.setStatus t).inputs = s.inputs := rfl
@[simp] theorem State.setStatus_outputs (s : State) (t : Status) : (s.setStatus t).outputs = s.outputs := rfl

@[simp] theorem State.setDt_v (s : State) (b : Byte) : (s.setDt b).v = s.v := rfl
@[simp] theorem State.setDt_i (s : State) (b : Byte) : (s.setDt b).i = s.i := rfl
@[simp] theorem State.setDt_pc (s : State) (b : Byte) : (s.setDt b).pc = s.pc := rfl
@[simp] theorem State.setDt_sp (s : State) (b : Byte) : (s.setDt b).sp = s.sp := rfl
@[simp] theorem State.setDt_stack (s : State) (b : Byte) : (s.setDt b).stack = s.stack := rfl
@[simp] theorem State.setDt_dt (s : State) (b : Byte) : (s.setDt b).dt = b := rfl
@[simp] theorem State.setDt_st (s : State) (b : Byte) : (s.setDt b).st = s.st := rfl
@[simp] theorem State.setDt_fb (s : State) (b : Byte) : (s.setDt b).fb = s.fb := rfl
@[simp] theorem State.setDt_key (s : State) (b : Byte) : (s.setDt b).key = s.key := rfl
@[simp] theorem State.setDt_draw (s : State) (b : Byte) : (s.setDt b).draw = s.draw := rfl
@[simp] theorem State.setDt_status (s : State) (b : Byte) : (s.setDt b).status = s.status := rfl
@[simp] theorem State.setDt_cause (s : State) (b : Byte) : (s.setDt b).cause = s.cause := rfl
@[simp] theorem State.setDt_mem (s : State) (b : Byte) : (s.setDt b).mem = s.mem := rfl
@[simp] theorem State.setDt_rnd (s : State) (b : Byte) : (s.setDt b).rnd = s.rnd := rfl
@[simp] theorem State.setDt_rndCount (s : State) (b : Byte) : (s.setDt b).rndCount = s.rndCount := rfl
@[simp] theorem State.setDt_loadable (s : State) (b : Byte) : (s.setDt b).loadable = s.loadable := rfl
@[simp] theorem State.setDt_inputs (s : State) (b : Byte) : (s.setDt b).inputs = s.inputs := rfl
@[simp] theorem State.setDt_outputs (s : State) (b : Byte) : (s.setDt b).outputs = s.outputs := rfl

@[simp] theorem State.setSt_v (s : State) (b : Byte) : (s.setSt b).v = s.v := rfl
@[simp] theorem State.setSt_i (s : State) (b : Byte) : (s.setSt b).i = s.i := rfl
@[simp] theorem State.setSt_pc (s : State) (b : Byte) : (s.setSt b).pc = s.pc := rfl
@[simp] theorem State.setSt_sp (s : State) (b : Byte) : (s.setSt b).sp = s.sp := rfl
@[simp] theorem State.setSt_stack (s : State) (b : Byte) : (s.setSt b).stack = s.stack := rfl
@[simp] theorem State.setSt_dt (s : State) (b : Byte) : (s.setSt b).dt = s.dt := rfl
@[simp] theorem State.setSt_st (s : State) (b : Byte) : (s.setSt b).st = b := rfl
@[simp] theorem State.setSt_fb (s : State) (b : Byte) : (s.setSt b).fb = s.fb := rfl
@[simp] theorem State.setSt_key (s : State) (b : Byte) : (s.setSt b).key = s.key := rfl
@[simp] theorem State.setSt_draw (s : State) (b : Byte) : (s.setSt b).draw = s.draw := rfl
@[simp] theorem State.setSt_status (s : State) (b : Byte) : (s.setSt b).status = s.status := rfl
@[simp] theorem State.setSt_cause (s : State) (b : Byte) : (s.setSt b).cause = s.cause := rfl
@[simp] theorem State.setSt_mem (s : State) (b : Byte) : (s.setSt b).mem = s.mem := rfl
@[simp] theorem State.setSt_rnd (s : State) (b : Byte) : (s.setSt b).rnd = s.rnd := rfl
@[simp] theorem State.setSt_rndCount (s : State) (b : Byte) : (s.setSt b).rndCount = s.rndCount := rfl
@[simp] theorem State.setSt_loadable (s : State) (b : Byte) : (s.setSt b).loadable = s.loadable := rfl
@[simp] theorem State.setSt_inputs (s : State) (b : Byte) : (s.setSt b).inputs = s.inputs := rfl
@[simp] theorem State.setSt_outputs (s : State) (b : Byte) : (s.setSt b).outputs = s.outputs := rfl

@[simp] theorem State.display_v (s : State) (fb : Framebuffer) : (s.display fb).v = s.v := rfl
@[simp] theorem State.display_i (s : State) (fb : Framebuffer) : (s.display fb).i = s.i := rfl
@[simp] theorem State.display_pc (s : State) (fb : Framebuffer) : (s.display fb).pc = s.pc := rfl
@[simp] theorem State.display_sp (s : State) (fb : Framebuffer) : (s.display fb).sp = s.sp := rfl
@[simp] theorem State.display_stack (s : State) (fb : Framebuffer) : (s.display fb).stack = s.stack := rfl
@[simp] theorem State.display_dt (s : State) (fb : Framebuffer) : (s.display fb).dt = s.dt := rfl
@[simp] theorem State.display_st (s : State) (fb : Framebuffer) : (s.display fb).st = s.st := rfl
@[simp] theorem State.display_fb (s : State) (fb : Framebuffer) : (s.display fb).fb = fb := rfl
@[simp] theorem State.display_key (s : State) (fb : Framebuffer) : (s.display fb).key = s.key := rfl
@[simp] theorem State.display_draw (s : State) (fb : Framebuffer) : (s.display fb).draw = true := rfl
@[simp] theorem State.display_status (s : State) (fb : Framebuffer) : (s.display fb).status = s.status := rfl
@[simp] theorem State.display_cause (s : State) (fb : Framebuffer) : (s.display fb).cause = s.cause := rfl
@[simp] theorem State.display_mem (s : State) (fb : Framebuffer) : (s.display fb).mem = s.mem := rfl
@[simp] theorem State.display_rnd (s : State) (fb : Framebuffer) : (s.display fb).rnd = s.rnd := rfl
@[simp] theorem State.display_rndCount (s : State) (fb : Framebuffer) : (s.display fb).rndCount = s.rndCount := rfl
@[simp] theorem State.display_loadable (s : State) (fb : Framebuffer) : (s.display fb).loadable = s.loadable := rfl
@[simp] theorem State.display_inputs (s : State) (fb : Framebuffer) : (s.display fb).inputs = s.inputs := rfl
@[simp] theorem State.display_outputs (s : State) (fb : Framebuffer) : (s.display fb).outputs = s.outputs := rfl

@[simp] theorem State.placeImage_v (s : State) (c : Config) (image : List Byte) : (s.placeImage c image).v = s.v := rfl
@[simp] theorem State.placeImage_i (s : State) (c : Config) (image : List Byte) : (s.placeImage c image).i = s.i := rfl
@[simp] theorem State.placeImage_pc (s : State) (c : Config) (image : List Byte) : (s.placeImage c image).pc = s.pc := rfl
@[simp] theorem State.placeImage_sp (s : State) (c : Config) (image : List Byte) : (s.placeImage c image).sp = s.sp := rfl
@[simp] theorem State.placeImage_stack (s : State) (c : Config) (image : List Byte) : (s.placeImage c image).stack = s.stack := rfl
@[simp] theorem State.placeImage_dt (s : State) (c : Config) (image : List Byte) : (s.placeImage c image).dt = s.dt := rfl
@[simp] theorem State.placeImage_st (s : State) (c : Config) (image : List Byte) : (s.placeImage c image).st = s.st := rfl
@[simp] theorem State.placeImage_fb (s : State) (c : Config) (image : List Byte) : (s.placeImage c image).fb = s.fb := rfl
@[simp] theorem State.placeImage_key (s : State) (c : Config) (image : List Byte) : (s.placeImage c image).key = s.key := rfl
@[simp] theorem State.placeImage_draw (s : State) (c : Config) (image : List Byte) : (s.placeImage c image).draw = s.draw := rfl
@[simp] theorem State.placeImage_status (s : State) (c : Config) (image : List Byte) : (s.placeImage c image).status = s.status := rfl
@[simp] theorem State.placeImage_cause (s : State) (c : Config) (image : List Byte) : (s.placeImage c image).cause = s.cause := rfl
@[simp] theorem State.placeImage_mem (s : State) (c : Config) (image : List Byte) : (s.placeImage c image).mem = s.mem.writeBytes c.loadAddr image := rfl
@[simp] theorem State.placeImage_rnd (s : State) (c : Config) (image : List Byte) : (s.placeImage c image).rnd = s.rnd := rfl
@[simp] theorem State.placeImage_rndCount (s : State) (c : Config) (image : List Byte) : (s.placeImage c image).rndCount = s.rndCount := rfl
@[simp] theorem State.placeImage_loadable (s : State) (c : Config) (image : List Byte) : (s.placeImage c image).loadable = false := rfl
@[simp] theorem State.placeImage_inputs (s : State) (c : Config) (image : List Byte) : (s.placeImage c image).inputs = s.inputs := rfl
@[simp] theorem State.placeImage_outputs (s : State) (c : Config) (image : List Byte) : (s.placeImage c image).outputs = s.outputs := rfl

end Sys2Proof.Machine
end

