-- ==== Sys2Proof/Laws/Memory.lean ====
section
/-! SUPPORT. The laws of memory: read after write, and the canonical form every operation keeps (spec R33 to R35, R41). -/

namespace Sys2Proof.Machine

/-! ## Read after write -/

theorem lookup_insert (m : Memory) (a k : Nat) (b : Byte) :
    (Memory.insert m a b).lookup k = if a = k then b else Memory.lookup m k := by
  induction m with
  | nil => rfl
  | cons e rest ih =>
    obtain ⟨j, c⟩ := e
    unfold Memory.insert
    split
    · rfl
    · split
      · next h => subst h; simp only [Memory.lookup]; split <;> simp_all
      · simp only [Memory.lookup, ih]; split <;> split <;> simp_all

theorem lookup_erase (m : Memory) (a k : Nat) :
    (Memory.erase m a).lookup k = if a = k then Memory.resetByte k else Memory.lookup m k := by
  induction m with
  | nil => simp [Memory.erase, Memory.lookup]
  | cons e rest ih =>
    obtain ⟨j, c⟩ := e
    unfold Memory.erase at ih ⊢
    by_cases hj : j = a
    · subst hj; simp only [List.filter_cons, Memory.lookup]; split <;> simp_all
    · simp only [List.filter_cons, hj, decide_true, ne_eq, not_false_eq_true, if_true, Memory.lookup, ih]
      split <;> split <;> simp_all

/-- A byte set, then looked up: the new byte at its address, the old one elsewhere. -/
theorem lookup_update (m : Memory) (a k : Nat) (b : Byte) :
    (Memory.update m a b).lookup k = if a = k then b else Memory.lookup m k := by
  unfold Memory.update
  split
  · next h => rw [lookup_erase]; split <;> simp_all
  · exact lookup_insert m a k b

/-- A byte written, then read: addresses count modulo 4096 (R33). -/
theorem read_write (m : Memory) (a k : Nat) (b : Byte) :
    (m.write a b).read k = if a % 4096 = k % 4096 then b else m.read k :=
  lookup_update m (effAddr a) (effAddr k) b

/-- Reading is modulo 4096 (R33). -/
theorem read_mod (m : Memory) (a : Nat) : m.read (a % 4096) = m.read a := by
  simp [Memory.read, effAddr]

/-- What a run of written bytes leaves at an address outside it. -/
theorem read_writeBytes_outside (m : Memory) (a k : Nat) (bs : List Byte)
    (h : ∀ j, j < bs.length → (a + j) % 4096 ≠ k % 4096) : (m.writeBytes a bs).read k = m.read k := by
  induction bs generalizing m a with
  | nil => rfl
  | cons b rest ih =>
    have h0 : a % 4096 ≠ k % 4096 := h 0 (by simp)
    have hrest : ∀ j, j < rest.length → (a + 1 + j) % 4096 ≠ k % 4096 := fun j hj => by
      rw [Nat.add_right_comm, Nat.add_assoc]
      exact h (j + 1) (by simpa using hj)
    rw [Memory.writeBytes, ih _ _ hrest, read_write, if_neg h0]

/-- What a run of at most 4096 written bytes leaves at the address of its `j`-th byte. -/
theorem read_writeBytes_inside (m : Memory) (a j : Nat) (bs : List Byte) (hj : j < bs.length)
    (hlen : bs.length ≤ 4096) : (m.writeBytes a bs).read (a + j) = bs[j] := by
  induction bs generalizing m a j with
  | nil => simp at hj
  | cons b rest ih =>
    simp only [List.length_cons] at hj hlen
    cases j with
    | zero =>
      rw [Memory.writeBytes, read_writeBytes_outside, read_write]
      · simp
      · intro i hi; omega
    | succ i =>
      have := ih (m.write a b) (a + 1) i (by omega) (by omega)
      simpa [Memory.writeBytes, Nat.add_assoc, Nat.add_comm 1 i] using this

/-- The state's view: a run of written bytes, read outside it. -/
theorem readMem_writeMem_outside (s : State) (a k : Nat) (bs : List Byte)
    (h : ∀ j, j < bs.length → (a + j) % 4096 ≠ k % 4096) : (s.writeMem a bs).readMem k = s.readMem k :=
  read_writeBytes_outside s.mem a k bs h

/-- The state's view: a run of written bytes, read at its `j`-th byte. -/
theorem readMem_writeMem_inside (s : State) (a j : Nat) (bs : List Byte) (hj : j < bs.length)
    (hlen : bs.length ≤ 4096) : (s.writeMem a bs).readMem (a + j) = bs[j] :=
  read_writeBytes_inside s.mem a j bs hj hlen

theorem readMem_mod (s : State) (a : Nat) : s.readMem (a % 4096) = s.readMem a := read_mod s.mem a

theorem readMem_eq_of_mem (s t : State) (h : t.mem = s.mem) (a : Nat) : t.readMem a = s.readMem a := by
  simp [State.readMem, h]

/-- A fetch depends on `pc` and memory only. -/
theorem fetch_eq_of_mem_pc (s t : State) (h : t.mem = s.mem) (hp : t.pc = s.pc) : t.fetch = s.fetch := by
  simp [State.fetch, State.readMem, h, hp]

@[simp] theorem readMem_advance (s : State) (a : Nat) : s.advance.readMem a = s.readMem a := rfl
@[simp] theorem readMem_setReg (s : State) (x : Reg) (b : Byte) (a : Nat) : (s.setReg x b).readMem a = s.readMem a := rfl
@[simp] theorem readMem_beginStep (s : State) (b : Byte) (a : Nat) : (s.beginStep b).readMem a = s.readMem a := rfl
@[simp] theorem fetch_beginStep (s : State) (b : Byte) : (s.beginStep b).fetch = s.fetch := rfl
@[simp] theorem fetch_raise (s : State) (c : Cause) (op : Word) : (s.raise c op).fetch = s.fetch := rfl
@[simp] theorem fetch_setStatus (s : State) (t : Status) : (s.setStatus t).fetch = s.fetch := rfl
@[simp] theorem fetch_setKey (s : State) (k : Key) (b : Bool) : (s.setKey k b).fetch = s.fetch := rfl
@[simp] theorem fetch_emit (s : State) (e : Output) : (s.emit e).fetch = s.fetch := rfl

/-! ## The canonical form -/

theorem wfFrom_cons (low k : Nat) (b : Byte) (rest : Memory) :
    Memory.wfFrom low ((k, b) :: rest) = true ↔
      low ≤ k ∧ k < 4096 ∧ b ≠ Memory.resetByte k ∧ Memory.wfFrom (k + 1) rest = true := by
  simp [Memory.wfFrom, and_assoc]

theorem wfFrom_mono (m : Memory) (low low' : Nat) (h : low' ≤ low) (hm : Memory.wfFrom low m = true) :
    Memory.wfFrom low' m = true := by
  cases m with
  | nil => rfl
  | cons e rest =>
    obtain ⟨k, b⟩ := e
    rw [wfFrom_cons] at hm ⊢
    exact ⟨by omega, hm.2⟩

theorem wfFrom_insert (m : Memory) (low a : Nat) (b : Byte) (hm : Memory.wfFrom low m = true) (hlow : low ≤ a)
    (ha : a < 4096) (hb : b ≠ Memory.resetByte a) : Memory.wfFrom low (Memory.insert m a b) = true := by
  induction m generalizing low with
  | nil => exact (wfFrom_cons ..).mpr ⟨hlow, ha, hb, rfl⟩
  | cons e rest ih =>
    obtain ⟨k, c⟩ := e
    have hm' := (wfFrom_cons ..).mp hm
    unfold Memory.insert
    split
    · next h => exact (wfFrom_cons ..).mpr ⟨hlow, ha, hb, (wfFrom_cons ..).mpr ⟨by omega, hm'.2⟩⟩
    · split
      · next h => subst h; exact (wfFrom_cons ..).mpr ⟨hlow, ha, hb, hm'.2.2.2⟩
      · exact (wfFrom_cons ..).mpr ⟨hm'.1, hm'.2.1, hm'.2.2.1, ih (k + 1) hm'.2.2.2 (by omega)⟩

theorem wfFrom_erase (m : Memory) (low a : Nat) (hm : Memory.wfFrom low m = true) :
    Memory.wfFrom low (Memory.erase m a) = true := by
  induction m generalizing low with
  | nil => rfl
  | cons e rest ih =>
    obtain ⟨k, c⟩ := e
    have hm' := (wfFrom_cons ..).mp hm
    have hrest := ih (k + 1) hm'.2.2.2
    unfold Memory.erase at hrest ⊢
    rw [List.filter_cons]
    split
    · exact (wfFrom_cons ..).mpr ⟨hm'.1, hm'.2.1, hm'.2.2.1, hrest⟩
    · exact wfFrom_mono _ (k + 1) low (by omega) hrest

/-- A write keeps the canonical form. -/
theorem wf_write (m : Memory) (a : Nat) (b : Byte) (hm : m.wf = true) : (m.write a b).wf = true := by
  unfold Memory.write Memory.update Memory.wf at *
  split
  · exact wfFrom_erase _ _ _ hm
  · next h => exact wfFrom_insert _ _ _ _ hm (Nat.zero_le _) (Nat.mod_lt _ (by decide)) h

/-- A run of writes keeps the canonical form. -/
theorem wf_writeBytes (m : Memory) (a : Nat) (bs : List Byte) (hm : m.wf = true) : (m.writeBytes a bs).wf = true := by
  induction bs generalizing m a with
  | nil => exact hm
  | cons b rest ih => exact ih _ _ (wf_write m a b hm)

/-- The memory a reset leaves is canonical under every configuration. -/
theorem wf_ofConfig (c : Config) : (Memory.ofConfig c).wf = true := wf_writeBytes _ _ _ rfl

/-- Writing what reset leaves to a memory that lists nothing lists nothing. -/
theorem writeBytes_reset (a : Nat) (bs : List Byte)
    (h : ∀ j (hj : j < bs.length), bs[j] = Memory.resetByte ((a + j) % 4096)) : Memory.writeBytes [] a bs = [] := by
  induction bs generalizing a with
  | nil => rfl
  | cons b rest ih =>
    have h0 : b = Memory.resetByte (effAddr a) := h 0 (by simp)
    have hw : Memory.write [] a b = [] := by simp [Memory.write, Memory.update, h0, Memory.erase]
    rw [Memory.writeBytes, hw]
    refine ih (a + 1) fun j hj => ?_
    rw [Nat.add_right_comm, Nat.add_assoc]
    exact h (j + 1) (by simpa using hj)

theorem reset_mem_wf : State.reset.mem.wf = true := rfl

/-- In a canonical list above `low`, an address below `low` reads as reset left it. -/
theorem lookup_below (m : Memory) (low a : Nat) (hm : Memory.wfFrom low m = true) (ha : a < low) :
    Memory.lookup m a = Memory.resetByte a := by
  induction m generalizing low with
  | nil => rfl
  | cons e rest ih =>
    obtain ⟨k, c⟩ := e
    have hm' := (wfFrom_cons ..).mp hm
    rw [Memory.lookup, if_neg (by omega)]
    exact ih (k + 1) hm'.2.2.2 (by omega)

theorem ext_wfFrom (m n : Memory) (low : Nat) (hm : Memory.wfFrom low m = true) (hn : Memory.wfFrom low n = true)
    (h : ∀ a, Memory.lookup m a = Memory.lookup n a) : m = n := by
  induction m generalizing n low with
  | nil =>
    cases n with
    | nil => rfl
    | cons e rest =>
      obtain ⟨k, c⟩ := e
      have hn' := (wfFrom_cons ..).mp hn
      exact absurd (h k).symm (by simpa [Memory.lookup] using hn'.2.2.1)
  | cons e rest ih =>
    obtain ⟨k, c⟩ := e
    have hm' := (wfFrom_cons ..).mp hm
    cases n with
    | nil => exact absurd (h k) (by simpa [Memory.lookup] using hm'.2.2.1)
    | cons e' rest' =>
      obtain ⟨k', c'⟩ := e'
      have hn' := (wfFrom_cons ..).mp hn
      have hkk : k = k' := by
        rcases Nat.lt_trichotomy k k' with hlt | heq | hlt
        · have := h k
          rw [lookup_below _ k' k ((wfFrom_cons ..).mpr ⟨Nat.le_refl _, hn'.2⟩) hlt] at this
          exact absurd this (by simpa [Memory.lookup] using hm'.2.2.1)
        · exact heq
        · have := (h k').symm
          rw [lookup_below _ k k' ((wfFrom_cons ..).mpr ⟨Nat.le_refl _, hm'.2⟩) hlt] at this
          exact absurd this (by simpa [Memory.lookup] using hn'.2.2.1)
      subst hkk
      have hc : c = c' := by simpa [Memory.lookup] using h k
      subst hc
      have hrest : rest = rest' := ih rest' (k + 1) hm'.2.2.2 hn'.2.2.2 fun a => by
        by_cases ha : k = a
        · subst ha
          rw [lookup_below rest (k + 1) k hm'.2.2.2 (by omega), lookup_below rest' (k + 1) k hn'.2.2.2 (by omega)]
        · simpa [Memory.lookup, ha] using h a
      rw [hrest]

theorem lookup_above (m : Memory) (low a : Nat) (hm : Memory.wfFrom low m = true) (ha : 4096 ≤ a) :
    Memory.lookup m a = Memory.resetByte a := by
  induction m generalizing low with
  | nil => rfl
  | cons e rest ih =>
    obtain ⟨k, c⟩ := e
    have hm' := (wfFrom_cons ..).mp hm
    rw [Memory.lookup, if_neg (by omega)]
    exact ih (k + 1) hm'.2.2.2

/-- Canonical memories that read the same at every address are the same list. -/
theorem memory_ext (m n : Memory) (hm : m.wf = true) (hn : n.wf = true) (h : ∀ a, m.read a = n.read a) : m = n := by
  refine ext_wfFrom m n 0 hm hn fun a => ?_
  by_cases ha : a < 4096
  · have := h a
    simpa [Memory.read, effAddr, Nat.mod_eq_of_lt ha] using this
  · rw [lookup_above m 0 a hm (by omega), lookup_above n 0 a hn (by omega)]

end Sys2Proof.Machine
end

