-- ==== Sys2Proof/Laws/Registers.lean ====
section
/-! SUPPORT. Reading registers, keys and stack entries after they are written. -/

namespace Sys2Proof.Machine

theorem reg_eq_of_v (s t : State) (h : t.v = s.v) (r : Reg) : t.reg r = s.reg r := by
  simp [State.reg, h]

theorem keyDown_eq_of_key (s t : State) (h : t.key = s.key) (k : Key) : t.keyDown k = s.keyDown k := by
  simp [State.keyDown, h]

theorem top_eq_of_stack (s t : State) (h : t.stack = s.stack) (hp : t.sp = s.sp) : t.top = s.top := by
  simp [State.top, h, hp]

/-- A register written, then read: the value at that register, the old value elsewhere. -/
theorem reg_setReg (s : State) (x r : Reg) (b : Byte) :
    (s.setReg x b).reg r = if r = x then b else s.reg r := by
  have h : x.toNat = r.toNat ↔ r = x := by rw [BitVec.toNat_inj, eq_comm]
  simp [State.reg, Vector.getElem_set, h]

@[simp] theorem reg_setReg_self (s : State) (x : Reg) (b : Byte) : (s.setReg x b).reg x = b := by
  simp [reg_setReg]

theorem reg_setReg_other (s : State) (x r : Reg) (b : Byte) (h : r ≠ x) : (s.setReg x b).reg r = s.reg r := by
  simp [reg_setReg, h]

/-- The flag unit: VF holds the flag, Vx the result unless x is VF, the rest is as before (R82). -/
theorem reg_setResult (s : State) (x r : Reg) (b : Byte) (f : Bool) :
    (s.setResult x b f).reg r = if r = vf then flagByte f else if r = x then b else s.reg r := by
  simp [State.setResult, reg_setReg]

/-- A key cell written, then read. -/
theorem keyDown_setKey (s : State) (k j : Key) (b : Bool) :
    (s.setKey k b).keyDown j = if j = k then b else s.keyDown j := by
  have h : k.toNat = j.toNat ↔ j = k := by rw [BitVec.toNat_inj, eq_comm]
  simp [State.keyDown, Vector.getElem_set, h]

@[simp] theorem reg_advance (s : State) (r : Reg) : s.advance.reg r = s.reg r := rfl
@[simp] theorem reg_skipIf (s : State) (c : Bool) (r : Reg) : (s.skipIf c).reg r = s.reg r := rfl
@[simp] theorem reg_jumpTo (s : State) (t : Word) (r : Reg) : (s.jumpTo t).reg r = s.reg r := rfl
@[simp] theorem reg_writeMem (s : State) (a : Nat) (bs : List Byte) (r : Reg) : (s.writeMem a bs).reg r = s.reg r := rfl
@[simp] theorem reg_display (s : State) (fb : Framebuffer) (r : Reg) : (s.display fb).reg r = s.reg r := rfl
@[simp] theorem reg_setKey (s : State) (k : Key) (b : Bool) (r : Reg) : (s.setKey k b).reg r = s.reg r := rfl
@[simp] theorem reg_setStatus (s : State) (t : Status) (r : Reg) : (s.setStatus t).reg r = s.reg r := rfl
@[simp] theorem reg_beginStep (s : State) (b : Byte) (r : Reg) : (s.beginStep b).reg r = s.reg r := rfl
@[simp] theorem keyDown_setReg (s : State) (x : Reg) (b : Byte) (k : Key) : (s.setReg x b).keyDown k = s.keyDown k := rfl
@[simp] theorem keyDown_advance (s : State) (k : Key) : s.advance.keyDown k = s.keyDown k := rfl
@[simp] theorem keyDown_skipIf (s : State) (c : Bool) (k : Key) : (s.skipIf c).keyDown k = s.keyDown k := rfl
@[simp] theorem keyDown_setStatus (s : State) (t : Status) (k : Key) : (s.setStatus t).keyDown k = s.keyDown k := rfl
@[simp] theorem keyDown_beginStep (s : State) (b : Byte) (k : Key) : (s.beginStep b).keyDown k = s.keyDown k := rfl

/-- The entry a call pushes is the one a return reads. -/
@[simp] theorem top_push (s : State) (w : Word) : (s.push w).top = w := by
  simp [State.top, State.push]

/-- A return after a call leaves SP where it was. -/
theorem drop_push_sp (s : State) (w : Word) : (s.push w).drop.sp = s.sp := by
  have h : ∀ p : Fin 16, p + 1 - 1 = p := by decide
  exact h s.sp

/-- Every one of the sixteen keys is looked at. -/
theorem mem_keys (k : Key) : k ∈ (List.range 16).map (BitVec.ofNat 4) :=
  List.mem_map.mpr ⟨k.toNat, List.mem_range.mpr k.isLt, by simp⟩

/-- No key is found exactly when every key is up. -/
theorem leastKeyDown_eq_none (s : State) : s.leastKeyDown = none ↔ ∀ k, s.keyDown k = false := by
  unfold State.leastKeyDown
  rw [List.find?_eq_none]
  exact ⟨fun h k => by simpa using h k (mem_keys k), fun h k _ => by simp [h k]⟩

/-- The key that is found is down, and every lower key is up (R112). -/
theorem leastKeyDown_eq_some (s : State) (k : Key) (h : s.leastKeyDown = some k) :
    s.keyDown k = true ∧ ∀ j : Key, j.toNat < k.toNat → s.keyDown j = false := by
  unfold State.leastKeyDown at h
  rw [List.find?_eq_some_iff_getElem] at h
  obtain ⟨hk, n, hn, hkn, hlow⟩ := h
  refine ⟨hk, fun j hj => ?_⟩
  simp only [List.length_map, List.length_range] at hn
  have hkv : k.toNat = n := by
    rw [← hkn]; simp [Nat.mod_eq_of_lt hn]
  have := hlow j.toNat (by omega)
  simpa using this

end Sys2Proof.Machine
end

