-- ==== Sys2Proof/Laws/Operations.lean ====
section
/-! SUPPORT. What the operand forms, the arithmetic, the flags and the block transfers compute. -/

namespace Sys2Proof.Machine

/-! ## Operands -/

@[simp] theorem zextAddr_toNat (nnn : Addr) : (zextAddr nnn).toNat = nnn.toNat := by
  simp [zextAddr]; omega

@[simp] theorem zextByte_toNat (b : Byte) : (zextByte b).toNat = b.toNat := by
  simp [zextByte]; omega

theorem keyOf_toNat (s : State) (x : Reg) : (s.keyOf x).toNat = (s.reg x).toNat % 16 := by
  simp [State.keyOf]

theorem lowNibble_toNat (b : Byte) : (b &&& 0x0F).toNat = b.toNat % 16 := by
  rw [BitVec.toNat_and]; exact Nat.and_two_pow_sub_one_eq_mod b.toNat 4

theorem glyphAddr_toNat (s : State) (x : Reg) : (s.glyphAddr x).toNat = 5 * ((s.reg x).toNat % 16) := by
  simp only [State.glyphAddr, lowNibble_toNat, Config.fontBase, BitVec.toNat_ofNat]; omega

/-! ## Program counter -/

theorem advance_pc_toNat (s : State) : s.advance.pc.toNat = (s.pc.toNat + 2) % 65536 := by
  simp [BitVec.toNat_add]

theorem skipIf_pc_toNat (s : State) (c : Bool) :
    (s.skipIf c).pc.toNat = (s.pc.toNat + if c then 4 else 2) % 65536 := by
  cases c <;> simp [BitVec.toNat_add]

/-! ## Arithmetic and flags -/

theorem addByte_toNat (a b : Byte) : (addByte a b).toNat = (a.toNat + b.toNat) % 256 := by
  simp [addByte]

theorem subByte_toNat (a b : Byte) : (subByte a b).toNat = (256 + a.toNat - b.toNat) % 256 := by
  simp only [subByte, BitVec.toNat_ofInt]; omega

theorem flagByte_toNat (c : Bool) : (flagByte c).toNat = if c then 1 else 0 := by
  cases c <;> rfl

theorem shiftRight_toNat (b : Byte) : (shiftRight b).toNat = b.toNat / 2 := by
  simp [shiftRight, Nat.shiftRight_eq_div_pow]

theorem shiftLeft_toNat (b : Byte) : (shiftLeft b).toNat = b.toNat * 2 % 256 := by
  simp [shiftLeft, Nat.shiftLeft_eq]

theorem bitOutRight_eq (b : Byte) : bitOutRight b = decide (b.toNat % 2 = 1) := by
  simp [bitOutRight, BitVec.getLsbD, Nat.testBit_zero]

theorem bitOutLeft_eq (b : Byte) : bitOutLeft b = decide (128 ≤ b.toNat) := by
  simp only [bitOutLeft, BitVec.getLsbD, Nat.testBit_eq_decide_div_mod_eq]
  have := b.isLt
  congr 1; simp only [eq_iff_iff]; omega

theorem countDown_toNat (b : Byte) : (countDown b).toNat = b.toNat - 1 := by
  unfold countDown
  split
  · next h => subst h; rfl
  · next h =>
    have : b.toNat ≠ 0 := fun h0 => h (BitVec.eq_of_toNat_eq h0)
    rw [BitVec.toNat_sub]; simp; omega

/-! ## Blocks (R101, R102) -/

@[simp] theorem block_length (s : State) (x : Reg) : (s.block x).length = x.toNat + 1 := by
  simp [State.block]

theorem block_getElem (s : State) (x : Reg) (k : Nat) (h : k < (s.block x).length) :
    (s.block x)[k] = s.reg (BitVec.ofNat 4 k) := by
  simp [State.block]

@[simp] theorem spriteBytes_length (s : State) (n : Nibble) : (s.spriteBytes n).length = n.toNat := by
  simp [State.spriteBytes]

theorem spriteBytes_getElem (s : State) (n : Nibble) (j : Nat) (h : j < (s.spriteBytes n).length) :
    (s.spriteBytes n)[j] = s.readMem (s.i.toNat + j) := by
  simp [State.spriteBytes, State.dataAddr]

/-- A block load changes the registers only. -/
theorem loadRegs_frame (s : State) (ks : List Nat) : s.loadRegs ks = { s with v := (s.loadRegs ks).v } := by
  induction ks generalizing s with
  | nil => rfl
  | cons k rest ih => rw [State.loadRegs, ih]; rfl

/-- A block load leaves in a listed register the byte at I plus its number, and every other register as it was. -/
theorem reg_loadRegs (s : State) (ks : List Nat) (hk : ∀ k ∈ ks, k < 16) (r : Reg) :
    (s.loadRegs ks).reg r = if r.toNat ∈ ks then s.readMem (s.i.toNat + r.toNat) else s.reg r := by
  induction ks generalizing s with
  | nil => rfl
  | cons k rest ih =>
    have hlt : k < 16 := hk k (by simp)
    have hr : r = BitVec.ofNat 4 k ↔ r.toNat = k := by
      rw [← BitVec.toNat_inj, BitVec.toNat_ofNat, Nat.mod_eq_of_lt hlt]
    rw [State.loadRegs, ih _ fun j hj => hk j (by simp [hj])]
    by_cases h : r.toNat = k
    · subst h; simp [State.dataAddr]
    · simp [h, reg_setReg, hr]

end Sys2Proof.Machine
end

