-- ==== Sys2Proof/Laws/Cycle.lean ====
section
/-! SUPPORT. What one step, one event and one move can do, said once (spec R61, R64, R69). -/

namespace Sys2Proof.Machine

/-- A `Step` either executes the instruction it decodes or reports an `Unknown` value. -/
theorem stepInstr_cases (s : State) (r : Byte) :
    (∃ i, decode s.fetch = .ok i ∧ s.stepInstr r = exec i (s.beginStep r)) ∨
    (∃ e, decode s.fetch = .error e ∧ s.stepInstr r = .next ((s.beginStep r).unknown s.fetch)) := by
  unfold State.stepInstr
  cases h : decode s.fetch with
  | ok i => exact .inl ⟨i, rfl, rfl⟩
  | error e => exact .inr ⟨e, rfl, rfl⟩

/-- A `Step` delivered outside HALT. -/
theorem deliver_step (c : Config) (s : State) (r : Byte) (h : s.status ≠ .halt) :
    s.deliver c (.step r) = s.stepInstr r := if_neg h

/-- A `Step` delivered in HALT changes nothing. -/
theorem deliver_step_halt (c : Config) (s : State) (r : Byte) (h : s.status = .halt) :
    s.deliver c (.step r) = .next s := if_pos h

/-- A move delivers the environment's next event. -/
theorem move_cons (c : Config) (s : State) (e : Event) (rest : List Event) (h : s.inputs = e :: rest) :
    s.move c = { s with inputs := rest }.deliver c e := by
  simp only [State.move, h]

/-- A move with no event pending is a step with a free random byte. -/
theorem move_nil (c : Config) (s : State) (h : s.inputs = []) : s.move c = s.freeStep := by
  simp only [State.move, h]

/-- A load that has a successor was allowed, fitted, and placed the image. -/
theorem loadImage_next (c : Config) (s t : State) (image : List Byte) (h : s.loadImage c image = .next t) :
    s.loadable = true ∧ c.imageFits image = true ∧ t = s.placeImage c image := by
  unfold State.loadImage at h
  split at h
  · cases h
  · split at h
    · next h1 h2 => cases h; exact ⟨by simpa using h1, h2, rfl⟩
    · cases h

/-- A timer tick changes the timers and the output events only. -/
theorem timerTick_frame (s : State) :
    s.timerTick = { s with dt := s.timerTick.dt, st := s.timerTick.st, outputs := s.timerTick.outputs } := by
  unfold State.timerTick; split <;> rfl

/-- A key event changes the keypad only. -/
theorem keyPress_frame (s : State) (k : Key) : s.keyPress k = { s with key := (s.keyPress k).key } := by
  unfold State.keyPress; split <;> rfl

theorem keyRelease_frame (s : State) (k : Key) : s.keyRelease k = { s with key := (s.keyRelease k).key } := by
  unfold State.keyRelease; split <;> rfl

/-- Under the default configuration reset leaves every byte as `Memory.resetByte` says. -/
theorem ofConfig_standard : Memory.ofConfig Config.standard = [] := by
  have hlen : Config.standard.font.length = 80 := rfl
  refine writeBytes_reset _ _ fun j hj => ?_
  rw [Nat.mod_eq_of_lt (by simp only [Config.fontBase]; omega)]
  simp [Config.fontBase, Memory.resetByte, List.getElem?_eq_getElem hj]

/-- The reset state is what a `Reset` with the default configuration leaves. -/
theorem reset_resetFor : State.reset.resetFor Config.standard = State.reset := by
  simp only [State.resetFor, ofConfig_standard]; rfl

end Sys2Proof.Machine
end

