-- ==== Sys2Proof/Laws/Display.lean ====
section
/-! SUPPORT. One pixel of the framebuffer after a flip, after a sprite bit, and after a clear (spec R21, R105, R106). -/

namespace Sys2Proof.Machine

/-- Two framebuffers that agree at every pixel of the screen are equal. -/
theorem framebuffer_ext (f g : Framebuffer)
    (h : ∀ r c, r < 32 → c < 64 → Framebuffer.pixel f r c = Framebuffer.pixel g r c) : f = g := by
  refine Vector.ext fun r hr => Vector.ext fun c hc => ?_
  simpa [Framebuffer.pixel, hr, hc] using h r c hr hc

@[simp] theorem pixel_clear (r c : Nat) : Framebuffer.pixel Framebuffer.clear r c = false := by
  unfold Framebuffer.pixel Framebuffer.clear
  split <;> simp

/-- A flip changes the one pixel it names, if that is on the screen. -/
theorem pixel_flipPixel (fb : Framebuffer) (r c r' c' : Nat) (hr' : r' < 32) (hc' : c' < 64) :
    Framebuffer.pixel (Framebuffer.flipPixel fb r c) r' c' =
      (Framebuffer.pixel fb r' c' ^^ decide (r = r' ∧ c = c')) := by
  unfold Framebuffer.flipPixel
  split
  · next h =>
    simp only [Framebuffer.pixel, hr', hc', and_self, dite_true, Vector.getElem_set]
    by_cases h1 : r = r'
    · subst h1
      by_cases h2 : c = c'
      · subst h2; simp
      · simp [h2]
    · simp [h1]
  · next h =>
    have : ¬(r = r' ∧ c = c') := fun ⟨h1, h2⟩ => h ⟨h1 ▸ hr', h2 ▸ hc'⟩
    simp [this]

/-- A sprite bit flips the pixel it lands on. -/
theorem pixel_drawBit (p : Canvas) (r c r' c' : Nat) (bit : Bool) (hr' : r' < 32) (hc' : c' < 64) :
    Framebuffer.pixel (p.drawBit r c bit).fb r' c' =
      (Framebuffer.pixel p.fb r' c' ^^ (bit && decide (r = r' ∧ c = c'))) := by
  unfold Canvas.drawBit
  split
  · next h => rw [pixel_flipPixel _ _ _ _ _ hr' hc']; simp [h.2.2]
  · next h =>
    cases bit
    · simp
    · have : ¬(r = r' ∧ c = c') := fun ⟨h1, h2⟩ => h ⟨h2 ▸ hc', h1 ▸ hr', rfl⟩
      simp [this]

/-- A sprite bit collides when it is 1 and lands on a pixel that is on. -/
theorem hit_drawBit (p : Canvas) (r c : Nat) (bit : Bool) :
    (p.drawBit r c bit).hit = (p.hit || (bit && Framebuffer.pixel p.fb r c)) := by
  unfold Canvas.drawBit
  split
  · next h => simp [h.2.2]
  · next h =>
    cases bit
    · simp
    · have : ¬(r < 32 ∧ c < 64) := fun ⟨h1, h2⟩ => h ⟨h2, h1, rfl⟩
      simp [Framebuffer.pixel, this]

end Sys2Proof.Machine
end

