-- ==== Sys2Proof/Laws/Encoding.lean ====
section
/-! SUPPORT. The fields of an encoded word, and the word of its fields (spec R51, R53). -/

namespace Sys2Proof

/-! ## Words as numbers -/

theorem append_toNat {m n : Nat} (a : BitVec m) (b : BitVec n) : (a ++ b).toNat = a.toNat * 2 ^ n + b.toNat := by
  rw [BitVec.toNat_append, ← Nat.shiftLeft_add_eq_or_of_lt b.isLt, Nat.shiftLeft_eq]

theorem extract_toNat {n : Nat} (op : BitVec n) (lo len : Nat) :
    (op.extractLsb' lo len).toNat = op.toNat / 2 ^ lo % 2 ^ len := by
  rw [BitVec.extractLsb'_toNat, Nat.shiftRight_eq_div_pow]

theorem encodeXNN_toNat (f : Nibble) (x : Reg) (nn : Byte) :
    (encodeXNN f x nn).toNat = f.toNat * 4096 + x.toNat * 256 + nn.toNat := by
  simp only [encodeXNN, append_toNat]; omega

theorem encodeA_toNat (f : Nibble) (nnn : Addr) : (encodeA f nnn).toNat = f.toNat * 4096 + nnn.toNat :=
  append_toNat f nnn

theorem encodeXY_toNat (f : Nibble) (x y : Reg) (n : Nibble) :
    (encodeXY f x y n).toNat = f.toNat * 4096 + x.toNat * 256 + y.toNat * 16 + n.toNat := by
  simp only [encodeXY, append_toNat]; omega

theorem topNibble_toNat (op : Word) : (topNibble op).toNat = op.toNat / 4096 := by
  simp only [topNibble, extract_toNat]; omega

theorem fieldX_toNat (op : Word) : (fieldX op).toNat = op.toNat / 256 % 16 := extract_toNat op 8 4

theorem fieldY_toNat (op : Word) : (fieldY op).toNat = op.toNat / 16 % 16 := extract_toNat op 4 4

theorem fieldN_toNat (op : Word) : (fieldN op).toNat = op.toNat % 16 := by
  simp only [fieldN, extract_toNat]; omega

theorem fieldNN_toNat (op : Word) : (fieldNN op).toNat = op.toNat % 256 := by
  simp only [fieldNN, extract_toNat]; omega

theorem fieldNNN_toNat (op : Word) : (fieldNNN op).toNat = op.toNat % 4096 := by
  simp only [fieldNNN, extract_toNat]; omega

theorem wordOfBytes_toNat (high low : Byte) : (wordOfBytes high low).toNat = high.toNat * 256 + low.toNat :=
  append_toNat high low

/-! ## The fields of an encoded word -/

@[simp] theorem topNibble_encodeXNN (f : Nibble) (x : Reg) (nn : Byte) : topNibble (encodeXNN f x nn) = f := by
  apply BitVec.eq_of_toNat_eq; rw [topNibble_toNat, encodeXNN_toNat]; omega

@[simp] theorem fieldX_encodeXNN (f : Nibble) (x : Reg) (nn : Byte) : fieldX (encodeXNN f x nn) = x := by
  apply BitVec.eq_of_toNat_eq; rw [fieldX_toNat, encodeXNN_toNat]; omega

@[simp] theorem fieldNN_encodeXNN (f : Nibble) (x : Reg) (nn : Byte) : fieldNN (encodeXNN f x nn) = nn := by
  apply BitVec.eq_of_toNat_eq; rw [fieldNN_toNat, encodeXNN_toNat]; omega

@[simp] theorem topNibble_encodeA (f : Nibble) (nnn : Addr) : topNibble (encodeA f nnn) = f := by
  apply BitVec.eq_of_toNat_eq; rw [topNibble_toNat, encodeA_toNat]; omega

@[simp] theorem fieldNNN_encodeA (f : Nibble) (nnn : Addr) : fieldNNN (encodeA f nnn) = nnn := by
  apply BitVec.eq_of_toNat_eq; rw [fieldNNN_toNat, encodeA_toNat]; omega

@[simp] theorem topNibble_encodeXY (f : Nibble) (x y : Reg) (n : Nibble) : topNibble (encodeXY f x y n) = f := by
  apply BitVec.eq_of_toNat_eq; rw [topNibble_toNat, encodeXY_toNat]; omega

@[simp] theorem fieldX_encodeXY (f : Nibble) (x y : Reg) (n : Nibble) : fieldX (encodeXY f x y n) = x := by
  apply BitVec.eq_of_toNat_eq; rw [fieldX_toNat, encodeXY_toNat]; omega

@[simp] theorem fieldY_encodeXY (f : Nibble) (x y : Reg) (n : Nibble) : fieldY (encodeXY f x y n) = y := by
  apply BitVec.eq_of_toNat_eq; rw [fieldY_toNat, encodeXY_toNat]; omega

@[simp] theorem fieldN_encodeXY (f : Nibble) (x y : Reg) (n : Nibble) : fieldN (encodeXY f x y n) = n := by
  apply BitVec.eq_of_toNat_eq; rw [fieldN_toNat, encodeXY_toNat]; omega

/-! ## A word is the word of its fields -/

theorem encodeXNN_fields (op : Word) : encodeXNN (topNibble op) (fieldX op) (fieldNN op) = op := by
  apply BitVec.eq_of_toNat_eq; rw [encodeXNN_toNat, topNibble_toNat, fieldX_toNat, fieldNN_toNat]; omega

theorem encodeA_fields (op : Word) : encodeA (topNibble op) (fieldNNN op) = op := by
  apply BitVec.eq_of_toNat_eq; rw [encodeA_toNat, topNibble_toNat, fieldNNN_toNat]; omega

theorem encodeXY_fields (op : Word) : encodeXY (topNibble op) (fieldX op) (fieldY op) (fieldN op) = op := by
  apply BitVec.eq_of_toNat_eq; rw [encodeXY_toNat, topNibble_toNat, fieldX_toNat, fieldY_toNat, fieldN_toNat]; omega

/-! ## The masks of the opcode map (R55) -/

theorem nibble_and_ones (f : Nibble) : f &&& 15#4 = f := BitVec.and_allOnes

theorem byte_and_ones (b : Byte) : b &&& 255#8 = b := BitVec.and_allOnes

theorem encodeXNN_and_family (f : Nibble) (x : Reg) (nn : Byte) :
    encodeXNN f x nn &&& 0xF000 = encodeXNN f 0 0 := by
  change (f ++ x ++ nn) &&& (15#4 ++ 0#4 ++ 0#8) = f ++ 0#4 ++ 0#8
  simp only [BitVec.and_append, nibble_and_ones, BitVec.and_zero]

theorem encodeXNN_and_byte (f : Nibble) (x : Reg) (nn : Byte) :
    encodeXNN f x nn &&& 0xF0FF = encodeXNN f 0 nn := by
  change (f ++ x ++ nn) &&& (15#4 ++ 0#4 ++ 255#8) = f ++ 0#4 ++ nn
  simp only [BitVec.and_append, nibble_and_ones, byte_and_ones, BitVec.and_zero]

theorem encodeA_and_family (f : Nibble) (nnn : Addr) :
    encodeA f nnn &&& 0xF000 = encodeA f 0 := by
  change (f ++ nnn) &&& (15#4 ++ 0#12) = f ++ 0#12
  simp only [BitVec.and_append, nibble_and_ones, BitVec.and_zero]

theorem encodeXY_and_family (f : Nibble) (x y : Reg) (n : Nibble) :
    encodeXY f x y n &&& 0xF000 = encodeXY f 0 0 0 := by
  change (f ++ x ++ y ++ n) &&& (15#4 ++ 0#4 ++ 0#4 ++ 0#4) = f ++ 0#4 ++ 0#4 ++ 0#4
  simp only [BitVec.and_append, nibble_and_ones, BitVec.and_zero]

theorem encodeXY_and_low (f : Nibble) (x y : Reg) (n : Nibble) :
    encodeXY f x y n &&& 0xF00F = encodeXY f 0 0 n := by
  change (f ++ x ++ y ++ n) &&& (15#4 ++ 0#4 ++ 0#4 ++ 15#4) = f ++ 0#4 ++ 0#4 ++ n
  simp only [BitVec.and_append, nibble_and_ones, BitVec.and_zero]

end Sys2Proof
end

