-- ==== Sys2Proof/Laws/Exec.lean ====
section
/-! SUPPORT. What any instruction can do to the state that controls execution, said once, so that no later proof splits over the
instructions for it (spec R14, R24, R25, R118). -/

namespace Sys2Proof.Machine

/-- What an instruction does to STATUS, CAUSE and the output events: nothing; or it is an Fx0A, which enters RUN or WAIT; or it is a
call at SP = 15 or a return at SP = 0, which raises its fatal fault and does nothing else. -/
inductive ControlEffect (i : Instr) (s t : State) : Prop where
  | kept (ho : t.outputs = s.outputs) (hs : t.status = s.status) (hc : t.cause = s.cause)
  | keyWait (x : Reg) (hi : i = .ldKey x) (ho : t.outputs = s.outputs) (hs : t.status = .run ∨ t.status = .wait)
      (hc : t.cause = s.cause)
  | overflow (nnn : Addr) (hi : i = .call nnn) (hsp : s.sp = 15) (ht : t = s.raise .stackOverflow (encode i))
  | underflow (hi : i = .ret) (hsp : s.sp = 0) (ht : t = s.raise .stackUnderflow (encode i))

theorem exec_controlEffect (i : Instr) (s t : State) (h : exec i s = .next t) : ControlEffect i s t := by
  cases i <;> simp only [exec] at h
  case ret =>
    unfold execRet at h
    split at h <;> cases h
    · next hs => exact .underflow rfl hs rfl
    · exact .kept rfl rfl rfl
  case call nnn =>
    unfold execCall at h
    split at h <;> cases h
    · next hs => exact .overflow nnn rfl hs rfl
    · exact .kept rfl rfl rfl
  case skp => unfold execSkp at h; split at h <;> cases h <;> exact .kept rfl rfl rfl
  case ldKey x =>
    unfold execLdKey at h
    split at h <;> cases h
    · exact .keyWait x rfl rfl (.inl rfl) rfl
    · exact .keyWait x rfl rfl (.inr rfl) rfl
  case load => cases h; rw [loadRegs_frame]; exact .kept rfl rfl rfl
  all_goals (cases h; exact .kept (by simp) (by simp) (by simp))

/-- No instruction touches what belongs to the step and the environment. -/
theorem exec_environment (i : Instr) (s t : State) (h : exec i s = .next t) :
    t.loadable = s.loadable ∧ t.rnd = s.rnd ∧ t.rndCount = s.rndCount ∧ t.inputs = s.inputs := by
  cases i <;> simp only [exec] at h
  case ret => unfold execRet at h; split at h <;> cases h <;> simp
  case call => unfold execCall at h; split at h <;> cases h <;> simp
  case skp => unfold execSkp at h; split at h <;> cases h <;> simp
  case ldKey => unfold execLdKey at h; split at h <;> cases h <;> simp
  case load => cases h; rw [loadRegs_frame]; simp
  all_goals (cases h; simp)

/-- Every instruction keeps memory canonical. -/
theorem exec_wf (i : Instr) (s t : State) (h : exec i s = .next t) (hm : s.mem.wf = true) : t.mem.wf = true := by
  cases i <;> simp only [exec] at h
  case ret => unfold execRet at h; split at h <;> cases h <;> exact hm
  case call => unfold execCall at h; split at h <;> cases h <;> exact hm
  case skp => unfold execSkp at h; split at h <;> cases h <;> exact hm
  case ldKey => unfold execLdKey at h; split at h <;> cases h <;> exact hm
  case load => cases h; rw [loadRegs_frame]; exact hm
  case store => cases h; exact wf_writeBytes _ _ _ hm
  case ldBcd => cases h; exact wf_writeBytes _ _ _ hm
  all_goals (cases h; simpa using hm)

/-- Coherence rests on memory, `pc`, SP, STATUS, CAUSE and the boot flag only. -/
theorem coherent_of_agree (s t : State) (hm : t.mem = s.mem) (hp : t.pc = s.pc) (hsp : t.sp = s.sp)
    (hs : t.status = s.status) (hc : t.cause = s.cause) (hl : t.loadable = s.loadable) :
    t.coherent = s.coherent := by
  have hf := fetch_eq_of_mem_pc s t hm hp
  simp only [State.coherent, State.statusExplained, State.waitExplained, State.haltExplained, hf, hm, hsp, hs, hc, hl]

end Sys2Proof.Machine
end

