-- ==== Sys2Proof/Laws/PerInstr.lean ====
section
/-! SUPPORT. For every instruction: its word belongs to its row of the opcode map (spec R54, R55). -/

namespace Sys2Proof.Laws.Row

/-- The word of `i` has the fixed bits of the row of `i`. -/
def Statement (i : Instr) : Prop := ∃ row, opcodeMap[i.rowIndex]? = some row ∧ row.has (encode i) = true

theorem of_and (i : Instr) (row : Row) (h : opcodeMap[i.rowIndex]? = some row) (hw : encode i &&& row.mask = row.bits) :
    Statement i := ⟨row, h, beq_iff_eq.mpr hw⟩

theorem cls : Statement .cls := of_and _ _ rfl (rfl)
theorem ret : Statement .ret := of_and _ _ rfl (rfl)
theorem jp (nnn : Addr) : Statement (.jp nnn) := of_and _ _ rfl (encodeA_and_family _ _)
theorem call (nnn : Addr) : Statement (.call nnn) := of_and _ _ rfl (encodeA_and_family _ _)
theorem seImm (x : Reg) (nn : Byte) : Statement (.seImm x nn) := of_and _ _ rfl (encodeXNN_and_family _ _ _)
theorem sneImm (x : Reg) (nn : Byte) : Statement (.sneImm x nn) := of_and _ _ rfl (encodeXNN_and_family _ _ _)
theorem seReg (x : Reg) (y : Reg) : Statement (.seReg x y) := of_and _ _ rfl (encodeXY_and_low _ _ _ _)
theorem ldImm (x : Reg) (nn : Byte) : Statement (.ldImm x nn) := of_and _ _ rfl (encodeXNN_and_family _ _ _)
theorem addImm (x : Reg) (nn : Byte) : Statement (.addImm x nn) := of_and _ _ rfl (encodeXNN_and_family _ _ _)
theorem ldReg (x : Reg) (y : Reg) : Statement (.ldReg x y) := of_and _ _ rfl (encodeXY_and_low _ _ _ _)
theorem orReg (x : Reg) (y : Reg) : Statement (.orReg x y) := of_and _ _ rfl (encodeXY_and_low _ _ _ _)
theorem andReg (x : Reg) (y : Reg) : Statement (.andReg x y) := of_and _ _ rfl (encodeXY_and_low _ _ _ _)
theorem xorReg (x : Reg) (y : Reg) : Statement (.xorReg x y) := of_and _ _ rfl (encodeXY_and_low _ _ _ _)
theorem addReg (x : Reg) (y : Reg) : Statement (.addReg x y) := of_and _ _ rfl (encodeXY_and_low _ _ _ _)
theorem subReg (x : Reg) (y : Reg) : Statement (.subReg x y) := of_and _ _ rfl (encodeXY_and_low _ _ _ _)
theorem shr (x : Reg) (y : Reg) : Statement (.shr x y) := of_and _ _ rfl (encodeXY_and_low _ _ _ _)
theorem subn (x : Reg) (y : Reg) : Statement (.subn x y) := of_and _ _ rfl (encodeXY_and_low _ _ _ _)
theorem shl (x : Reg) (y : Reg) : Statement (.shl x y) := of_and _ _ rfl (encodeXY_and_low _ _ _ _)
theorem sneReg (x : Reg) (y : Reg) : Statement (.sneReg x y) := of_and _ _ rfl (encodeXY_and_low _ _ _ _)
theorem ldI (nnn : Addr) : Statement (.ldI nnn) := of_and _ _ rfl (encodeA_and_family _ _)
theorem jpV0 (nnn : Addr) : Statement (.jpV0 nnn) := of_and _ _ rfl (encodeA_and_family _ _)
theorem rnd (x : Reg) (nn : Byte) : Statement (.rnd x nn) := of_and _ _ rfl (encodeXNN_and_family _ _ _)
theorem drw (x : Reg) (y : Reg) (n : Nibble) : Statement (.drw x y n) := of_and _ _ rfl (encodeXY_and_family _ _ _ _)
theorem skp (x : Reg) : Statement (.skp x) := of_and _ _ rfl (encodeXNN_and_byte _ _ _)
theorem sknp (x : Reg) : Statement (.sknp x) := of_and _ _ rfl (encodeXNN_and_byte _ _ _)
theorem ldFromDt (x : Reg) : Statement (.ldFromDt x) := of_and _ _ rfl (encodeXNN_and_byte _ _ _)
theorem ldKey (x : Reg) : Statement (.ldKey x) := of_and _ _ rfl (encodeXNN_and_byte _ _ _)
theorem ldDt (x : Reg) : Statement (.ldDt x) := of_and _ _ rfl (encodeXNN_and_byte _ _ _)
theorem ldSt (x : Reg) : Statement (.ldSt x) := of_and _ _ rfl (encodeXNN_and_byte _ _ _)
theorem addI (x : Reg) : Statement (.addI x) := of_and _ _ rfl (encodeXNN_and_byte _ _ _)
theorem ldFont (x : Reg) : Statement (.ldFont x) := of_and _ _ rfl (encodeXNN_and_byte _ _ _)
theorem ldBcd (x : Reg) : Statement (.ldBcd x) := of_and _ _ rfl (encodeXNN_and_byte _ _ _)
theorem store (x : Reg) : Statement (.store x) := of_and _ _ rfl (encodeXNN_and_byte _ _ _)
theorem load (x : Reg) : Statement (.load x) := of_and _ _ rfl (encodeXNN_and_byte _ _ _)

end Sys2Proof.Laws.Row
end

