-- ==== Sys2Proof/Tests/Slice0.lean ====
section
/-! SUPPORT. Tests: the checks refuse, words written out from the opcode map decode, the vectors of spec 95_test_vectors.md hold, and
the hypotheses of the statements are met. Expected values are the spec's. -/

namespace Sys2Proof.Tests

open Sys2Proof.Machine

/-! ## Helpers -/

/-- Something read off the next state, where there is one. -/
def after {α : Type} (r : Result) (f : State → α) : Option α :=
  match r with
  | .next t => some (f t)
  | _       => none

/-- The stop a move ends in, where it ends in one. -/
def faultOf : Result → Option Fault
  | .fault f => some f
  | _        => none

/-- The refusal a move ends in, where it ends in one. -/
def refusalOf : Result → Option Refusal
  | .refused f => some f
  | _          => none

/-- The reset state with some registers set. -/
def withRegs (l : List (Reg × Byte)) : State := l.foldl (fun s p => s.setReg p.1 p.2) State.reset

/-- A step from a state whose next word is `op`, with random byte `r`. -/
def run (s : State) (op : Word) (r : Byte) : Result := (s.placeWord op).deliver Config.standard (.step r)

/-- A sprite byte `b` at 0x300, I there, column in V1, row in V2. -/
def spriteAt (b x y : Byte) : State := ((withRegs [(1, x), (2, y)]).setI 0x300).writeMem 0x300 [b]

/-- The state after a result, the reset state where there is none. -/
def stateOf : Result → State
  | .next t => t
  | _       => State.reset

/-- The core waiting at an Fx0A. -/
def waiting : State := { State.reset.placeWord 0xF00A with status := .wait, loadable := false }

/-- The core halted at a return with an empty stack. -/
def halted : State :=
  { State.reset.placeWord 0x00EE with status := .halt, cause := .stackUnderflow, loadable := false }

/-! ## The checks refuse (WellFormed.lean, Memory.wf) -/

theorem test_standard_wf : Config.standard.wf = true ∧ Config.lower.wf = true := by decide
theorem test_loadAddr_refused : (Config.mk 0x300 Config.standard.font).wf = false := by decide
theorem test_font_length_refused : (Config.mk 0x200 (Config.standard.font ++ [0])).wf = false := by decide
theorem test_glyph_five_refused : (Config.mk 0x200 (List.replicate 80 0)).wf = false := by decide
theorem test_image_too_long_refused : Config.standard.imageFits (List.replicate 4 0) = true ∧
    (Config.mk 0xFFE []).imageFits [1, 2, 3] = false := by decide
theorem test_memory_unsorted_refused : Memory.wf [(0x301, 1), (0x300, 1)] = false := by decide
theorem test_memory_redundant_refused : Memory.wf [(0x300, 0)] = false ∧ Memory.wf [(0x000, 0xF0)] = false := by decide
theorem test_memory_beyond_refused : Memory.wf [(4096, 1)] = false := by decide

/-! ## Decoding: a word of every row, bits as R55 gives them -/

theorem test_decode_jumps : decodeTableWord 16 0b0000000011100000 = some .cls ∧
    decodeTableWord 16 0b0000000011101110 = some .ret ∧ decodeTableWord 16 0b0001101010111100 = some (.jp 0xABC) ∧
    decodeTableWord 16 0b0010101010111100 = some (.call 0xABC) ∧ decodeTableWord 16 0b1011101010111100 = some (.jpV0 0xABC) := by
  decide
theorem test_decode_skips : decodeTableWord 16 0b0011101111001101 = some (.seImm 0xB 0xCD) ∧
    decodeTableWord 16 0b0100101111001101 = some (.sneImm 0xB 0xCD) ∧
    decodeTableWord 16 0b0101101111000000 = some (.seReg 0xB 0xC) ∧
    decodeTableWord 16 0b1001101111000000 = some (.sneReg 0xB 0xC) ∧
    decodeTableWord 16 0b1110101110011110 = some (.skp 0xB) ∧ decodeTableWord 16 0b1110101110100001 = some (.sknp 0xB) := by
  decide
theorem test_decode_immediates : decodeTableWord 16 0b0110101111001101 = some (.ldImm 0xB 0xCD) ∧
    decodeTableWord 16 0b0111101111001101 = some (.addImm 0xB 0xCD) ∧
    decodeTableWord 16 0b1100101111001101 = some (.rnd 0xB 0xCD) ∧ decodeTableWord 16 0b1010101010111100 = some (.ldI 0xABC) ∧
    decodeTableWord 16 0b1101101111000101 = some (.drw 0xB 0xC 5) := by decide
theorem test_decode_alu : decodeTableWord 16 0b1000101111000000 = some (.ldReg 0xB 0xC) ∧
    decodeTableWord 16 0b1000101111000001 = some (.orReg 0xB 0xC) ∧
    decodeTableWord 16 0b1000101111000010 = some (.andReg 0xB 0xC) ∧
    decodeTableWord 16 0b1000101111000011 = some (.xorReg 0xB 0xC) ∧
    decodeTableWord 16 0b1000101111000100 = some (.addReg 0xB 0xC) ∧
    decodeTableWord 16 0b1000101111000101 = some (.subReg 0xB 0xC) ∧
    decodeTableWord 16 0b1000101111000110 = some (.shr 0xB 0xC) ∧
    decodeTableWord 16 0b1000101111000111 = some (.subn 0xB 0xC) ∧
    decodeTableWord 16 0b1000101111001110 = some (.shl 0xB 0xC) := by decide
theorem test_decode_misc : decodeTableWord 16 0b1111101100000111 = some (.ldFromDt 0xB) ∧
    decodeTableWord 16 0b1111101100001010 = some (.ldKey 0xB) ∧ decodeTableWord 16 0b1111101100010101 = some (.ldDt 0xB) ∧
    decodeTableWord 16 0b1111101100011000 = some (.ldSt 0xB) ∧ decodeTableWord 16 0b1111101100011110 = some (.addI 0xB) ∧
    decodeTableWord 16 0b1111101100101001 = some (.ldFont 0xB) ∧ decodeTableWord 16 0b1111101100110011 = some (.ldBcd 0xB) ∧
    decodeTableWord 16 0b1111101101010101 = some (.store 0xB) ∧ decodeTableWord 16 0b1111101101100101 = some (.load 0xB) := by
  decide
theorem test_decode_unknown : [0x0000, 0x01E0, 0x0123, 0x5121, 0x8008, 0x800F, 0x9AB1, 0xE1A2, 0xF130, 0xF000, 0xFFFF].all
    (fun w => decodeTableWord 16 w == none) = true := by decide
theorem test_decodeBytes : decodeBytes [0x12, 0x34, 0x56] = .ok (.jp 0x234, [0x56]) ∧ decodeBytes [0x12] = .error .truncated :=
  ⟨rfl, rfl⟩
theorem test_encodeBytes : encodeBytes (.ldImm 0xA 0x07) = [0x6A, 0x07] := by decide

/-! ## Control flow (95_test_vectors.md 2.2) -/

theorem test_jp : after (run State.reset 0x1ABC 0) (·.pc) = some 0x0ABC := by decide
theorem test_call : after (run State.reset 0x2400 0) (fun t => (t.sp, t.stack[1], t.pc)) = some (1, 0x0202, 0x0400) := by decide
theorem test_call_overflow : after (run { State.reset with sp := 15 } 0x2400 0)
    (fun t => (t.status, t.cause.code, t.pc, t.outputs)) = some (.halt, 2, 0x0200, [.fault .stackOverflow 0x0200 0x2400]) := by decide
theorem test_ret : after (exec .ret { (State.reset.push 0x0202) with pc := 0x0400 }) (fun t => (t.pc, t.sp, t.stack[1])) =
    some (0x0202, 0, 0x0202) := by decide
theorem test_ret_underflow : after (run State.reset 0x00EE 0) (fun t => (t.status, t.cause.code, t.pc, t.outputs)) =
    some (.halt, 3, 0x0200, [.fault .stackUnderflow 0x0200 0x00EE]) := by decide
theorem test_seImm : after (run (withRegs [(5, 0x42)]) 0x3542 0) (·.pc) = some 0x0204 ∧
    after (run (withRegs [(5, 0x42)]) 0x3543 0) (·.pc) = some 0x0202 := by decide
theorem test_sneImm : after (run (withRegs [(5, 0x42)]) 0x4542 0) (·.pc) = some 0x0202 ∧
    after (run (withRegs [(5, 0x42)]) 0x4543 0) (·.pc) = some 0x0204 := by decide
theorem test_seReg : after (run (withRegs [(1, 3), (2, 3)]) 0x5120 0) (·.pc) = some 0x0204 ∧
    after (run (withRegs [(1, 3), (2, 4)]) 0x5120 0) (·.pc) = some 0x0202 := by decide
theorem test_sneReg : after (run (withRegs [(1, 3), (2, 4)]) 0x9120 0) (·.pc) = some 0x0204 ∧
    after (run (withRegs [(1, 3), (2, 3)]) 0x9120 0) (·.pc) = some 0x0202 := by decide
theorem test_jpV0 : after (run (withRegs [(0, 0xFF)]) 0xBFFF 0) (·.pc) = some 0x10FE := by decide
theorem test_skip_wraps : after (run (State.reset.jumpTo 0xFFFE) 0x3000 0) (·.pc) = some 0x0002 := by decide

/-! ## ALU (2.3) -/

/-- V1, VF and `pc` after `op` with V1, V2 and VF = 0x77. -/
def alu (op : Word) (a b : Byte) : Option (Byte × Byte × Word) :=
  after (run (withRegs [(1, a), (2, b), (15, 0x77)]) op 0xA5) fun t => (t.reg 1, t.reg 15, t.pc)

theorem test_addReg : alu 0x8124 0xFF 0x01 = some (0x00, 1, 0x202) ∧ alu 0x8124 0x7F 0x80 = some (0xFF, 0, 0x202) := by decide
theorem test_subReg : alu 0x8125 0x03 0x05 = some (0xFE, 0, 0x202) ∧ alu 0x8125 0x05 0x05 = some (0x00, 0, 0x202) ∧
    alu 0x8125 0x05 0x03 = some (0x02, 1, 0x202) := by decide
theorem test_subn : alu 0x8127 0x03 0x05 = some (0x02, 1, 0x202) ∧ alu 0x8127 0xFF 0x00 = some (0x01, 0, 0x202) := by decide
theorem test_shr : alu 0x8126 0xAA 0xFF = some (0x7F, 1, 0x202) ∧ alu 0x8126 0xAA 0x80 = some (0x40, 0, 0x202) := by decide
theorem test_shl : alu 0x812E 0xAA 0x81 = some (0x02, 1, 0x202) ∧ alu 0x812E 0xAA 0x40 = some (0x80, 0, 0x202) := by decide
theorem test_logic : alu 0x8121 0xF0 0x0F = some (0xFF, 0x77, 0x202) ∧ alu 0x8122 0xF0 0x3C = some (0x30, 0x77, 0x202) ∧
    alu 0x8123 0xFF 0x0F = some (0xF0, 0x77, 0x202) := by decide
theorem test_ldReg : alu 0x8120 0x00 0xAB = some (0xAB, 0x77, 0x202) := by decide
theorem test_flag_wins : after (run (withRegs [(15, 0xFF), (2, 1)]) 0x8F24 0) (·.reg 15) = some 1 ∧
    after (run (withRegs [(15, 0x03)]) 0x81F6 0) (fun t => (t.reg 1, t.reg 15)) = some (1, 1) := by decide
theorem test_ldImm : after (run State.reset 0x6AFF 0) (·.reg 0xA) = some 0xFF := by decide
theorem test_addImm : alu 0x7101 0xFF 0 = some (0x00, 0x77, 0x202) := by decide
theorem test_rnd : after (run State.reset 0xC30F 0xA5) (·.reg 3) = some 0x05 := by decide

/-! ## Index and memory (2.4) -/

theorem test_ldI : after (run State.reset 0xA123 0) (·.i) = some 0x0123 := by decide
theorem test_addI : after (run ((withRegs [(2, 1)]).setI 0xFFFF) 0xF21E 0) (·.i) = some 0 := by decide
theorem test_ldFont : after (run (withRegs [(1, 0x1A)]) 0xF129 0) (·.i) = some 0x0032 := by decide
theorem test_ldBcd : after (run ((withRegs [(1, 123)]).setI 0x0FFF) 0xF133 0)
    (fun t => (t.readMem 0xFFF, t.readMem 0, t.readMem 1)) = some (1, 2, 3) := by decide
theorem test_store : after (run ((withRegs [(0, 0xAA), (1, 0xBB)]).setI 0x0FFF) 0xF155 0)
    (fun t => (t.readMem 0xFFF, t.readMem 0, t.readMem 1, t.i)) = some (0xAA, 0xBB, 0x90, 0x0FFF) := by decide
theorem test_blockLoad : after (run (((withRegs [(3, 0x99)]).setI 0x300).writeMem 0x300 [1, 5, 7]) 0xF265 0)
    (fun t => (t.reg 0, t.reg 1, t.reg 2, t.reg 3, t.i)) = some (1, 5, 7, 0x99, 0x300) := by decide
theorem test_write_reset_value_unlists : ((State.reset.writeMem 0x300 [7]).writeMem 0x300 [0]).mem = [] := by decide

/-! ## Display (2.5) -/

theorem test_cls : after (run { spriteAt 0 0 0 with fb := Framebuffer.flipPixel Framebuffer.clear 3 5 } 0x00E0 0)
    (fun t => (Framebuffer.pixel t.fb 3 5, t.draw)) = some (false, true) := by decide
theorem test_drw_clips : after (run (spriteAt 0xFF 62 0) 0xD121 0)
    (fun t => (Framebuffer.pixel t.fb 0 63, Framebuffer.pixel t.fb 0 0, t.reg 15)) = some (true, false, 0) := by decide
theorem test_drw_collides : after (run { spriteAt 0x80 0 32 with fb := Framebuffer.flipPixel Framebuffer.clear 0 0 } 0xD121 0)
    (fun t => (Framebuffer.pixel t.fb 0 0, t.reg 15, t.draw)) = some (false, 1, true) := by decide
theorem test_pixelAt : Framebuffer.pixelAt (Framebuffer.flipPixel Framebuffer.clear 1 2) 66 = true := by decide

/-! ## Keypad and timers (2.6, 2.7) -/

theorem test_skp : after (run ((withRegs [(1, 0x13)]).setKey 3 true) 0xE19E 0) (fun t => (t.pc, t.keyDown 3)) =
    some (0x0204, false) := by decide
theorem test_sknp : after (run ((withRegs [(1, 3)]).setKey 3 true) 0xE1A1 0) (fun t => (t.pc, t.keyDown 3)) =
    some (0x0202, true) := by decide
theorem test_ldKey_waits : after (run (withRegs [(2, 0x55)]) 0xF20A 0) (fun t => (t.status, t.pc, t.reg 2)) =
    some (.wait, 0x0200, 0x55) := by decide
theorem test_ldKey_least : after (run ((State.reset.setKey 2 true).setKey 5 true) 0xF30A 0)
    (fun t => (t.reg 3, t.keyDown 2, t.keyDown 5, t.pc)) = some (2, false, true, 0x0202) := by decide
theorem test_ldFromDt : after (run (State.reset.setDt 0x3C) 0xF307 0) (·.reg 3) = some 0x3C := by decide
theorem test_ldDt : after (run (withRegs [(4, 0x10)]) 0xF415 0) (·.dt) = some 0x10 := by decide
theorem test_ldSt : after (run (State.reset.setSt 1) 0xF018 0) (fun t => (t.st, t.outputs)) = some (0, []) := by decide
theorem test_timerTick : ((State.reset.setDt 5).setSt 1).timerTick.dt = 4 ∧ ((State.reset.setDt 0).setSt 1).timerTick.st = 0 ∧
    ((State.reset.setDt 0).setSt 1).timerTick.outputs = [.soundTrigger] ∧ State.reset.timerTick.outputs = [] := by decide
theorem test_keyPress_halted : (halted.keyPress 4).keyDown 4 = false ∧ (State.reset.keyPress 4).keyDown 4 = true := by decide

/-! ## The cycle (2.8, 2.9) -/

theorem test_unknown : after (run { State.reset with draw := true } 0x0123 0) (fun t => (t.pc, t.draw, t.outputs)) =
    some (0x0202, false, [.unknownOpcode 0x0200 0x0123]) := by decide
theorem test_fetch_wraps : after ((State.reset.jumpTo 0x0FFF).writeMem 0xFFF [0x60] |>.deliver Config.standard (.step 0))
    (fun t => (t.reg 0, t.pc)) = some (0xF0, 0x1001) := by decide
theorem test_step_halted : faultOf (step halted) = some .halted := by decide
theorem test_reset_leaves_halt : after (step { halted with inputs := [.reset] }) (fun t => (t.status, t.pc)) =
    some (.run, 0x0200) := by decide
theorem test_load : after (State.reset.deliver Config.lower (.load [0x12, 0x34])) (fun t => (t.readMem 0x50, t.readMem 0x51)) =
    some (0x12, 0x34) := by decide
theorem test_load_twice : refusalOf (waiting.deliver Config.standard (.load [])) = some .loadAfterBoot := by decide
theorem test_withFetchWord : after (step (halted.withFetchWord 16 0x6A07)) (fun t => (t.reg 0xA, t.pc, t.status)) =
    some (0x07, 0x0202, .run) := by decide
theorem test_reset_font : State.reset.readMem 0x19 = 0xF0 ∧ State.reset.readMem 0x4F = 0x80 ∧ State.reset.readMem 0x50 = 0 := by
  decide

/-! ## The hypotheses of the statements are met, each clause by a concrete state -/

/-- A core about to execute `op`. -/
def ready (op : Word) : State := State.reset.placeWord op

theorem witness_EncodeInvertsDecode : decode 0x812E = .ok (.shl 1 2) := rfl

theorem witness_DecodeFollowsTheOpcodeMap : decode 0x00EE = .ok .ret ∧ decode 0x5120 = .ok (.seReg 1 2) ∧
    decode 0x9AB0 = .ok (.sneReg 0xA 0xB) ∧ opcodeMap[1]? = some ⟨0x00EE, 0xFFFF⟩ ∧ Row.has ⟨0x00EE, 0xFFFF⟩ 0x00EE = true :=
  ⟨rfl, rfl, rfl, rfl, rfl⟩

theorem witness_StepRunsTheDecodedInstruction :
    ((ready 0x6A07).status ≠ .halt ∧ (ready 0x6A07).inputs = [] ∧ decode (ready 0x6A07).fetch = .ok (.ldImm 0xA 7)) ∧
    ({ waiting with inputs := [.step 9] }.status ≠ .halt ∧ { waiting with inputs := [.step 9] }.inputs = [.step 9] ∧
      decode { waiting with inputs := [.step 9] }.fetch = .ok (.ldKey 0)) :=
  ⟨⟨by decide, rfl, rfl⟩, by decide, rfl, rfl⟩

theorem witness_UnknownValuesAreReportedAndSkipped : (ready 0x0123).status ≠ .halt ∧
    decode (ready 0x0123).fetch = .error (.unknownOpcode (ready 0x0123).fetch) := ⟨by decide, rfl⟩

theorem witness_OnlyResetLeavesHalt : halted.status = .halt ∧ halted.inputs = [] ∧ halted.loadable = false ∧
    ∃ t, halted.deliver Config.standard .reset = .next t ∧ t.status ≠ .halt := ⟨rfl, rfl, rfl, _, rfl, by decide⟩

theorem witness_DrawFlagFollowsTheLastInstruction : ((ready 0x00E0).status ≠ .halt ∧
      ∃ t, (ready 0x00E0).deliver Config.standard (.step 0) = .next t) ∧
    (∃ t, halted.deliver Config.standard .timerTick = .next t) ∧ (∃ t, waiting.deliver Config.standard (.keyPress 15) = .next t) ∧
    (∃ t, waiting.deliver Config.standard (.keyRelease 0) = .next t) ∧
    (∃ t, State.reset.deliver Config.standard (.load [0x12]) = .next t) :=
  ⟨⟨by decide, _, rfl⟩, ⟨_, rfl⟩, ⟨_, rfl⟩, ⟨_, rfl⟩, _, rfl⟩

theorem witness_StepEmitsAtMostOneOutput : ∃ t, (ready 0xFFFF).deliver Config.standard (.step 0) = .next t := ⟨_, rfl⟩

theorem witness_EnabledMovesHaveASuccessor : (ready 0xFFFF).enabled = true ∧
    { halted with inputs := [.reset] }.enabled = true := by decide

theorem witness_ReturnRule : (State.reset.push 0x206).sp.val ≠ 0 ∧ { State.reset with sp := 15 }.sp.val ≠ 0 ∧
    State.reset.sp.val = 0 := by decide

theorem witness_CallRule : State.reset.sp.val ≠ 15 ∧ { State.reset with sp := 14 }.sp.val ≠ 15 ∧
    { State.reset with sp := 15 }.sp.val = 15 := by decide

theorem witness_AddWithCarryRule : (1 : Reg) ≠ vf ∧ (14 : Reg) ≠ vf := by decide

theorem witness_RegisterSkipRules : (0x5121 : Word).toNat / 4096 = 5 ∧ (0x5121 : Word).toNat % 16 ≠ 0 ∧
    (0x912F : Word).toNat / 4096 = 9 ∧ (0x912F : Word).toNat % 16 ≠ 0 := by decide

theorem witness_RandomByteRule : (ready 0xCFFF).status ≠ .halt ∧ decode (ready 0xCFFF).fetch = .ok (.rnd 15 0xFF) :=
  ⟨by decide, rfl⟩

theorem witness_SubtractRules : (1 : Reg) ≠ vf ∧ (0 : Reg) ≠ vf := by decide

theorem witness_ShiftRules : (2 : Reg) ≠ vf ∧ (14 : Reg) ≠ vf := by decide

theorem witness_KeySkipRules : (3 : Key).toNat = ((withRegs [(1, 0x13)]).reg 1).toNat % 16 ∧
    (15 : Key).toNat = ((withRegs [(15, 0xFF)]).reg 15).toNat % 16 := by decide

theorem witness_KeyWaitRule : ((State.reset.setKey 15 true).keyDown 15 = true ∧
      ∀ j : Key, j.toNat < (15 : Key).toNat → (State.reset.setKey 15 true).keyDown j = false) ∧
    (∀ k, State.reset.keyDown k = false) := by decide

theorem witness_BlockStoreRule : (0 : Reg).toNat ≤ (0 : Reg).toNat ∧ (15 : Reg).toNat ≤ (15 : Reg).toNat ∧
    ∀ j, j ≤ (15 : Reg).toNat → 0x310 % 4096 ≠ ((State.reset.setI 0x300).i.toNat + j) % 4096 := by decide

theorem witness_BlockLoadRule : (15 : Reg).toNat ≤ (15 : Reg).toNat ∧ (14 : Reg).toNat < (15 : Reg).toNat := by decide

theorem witness_BcdRule : ∀ j, j < 3 → 0x002 % 4096 ≠ ((State.reset.setI 0xFFF).i.toNat + j) % 4096 := by decide

theorem witness_RegistersChangeOnlyAsNamed :
    (∃ t, exec (.ldImm 15 7) State.reset = .next t ∧ t.reg 15 ≠ State.reset.reg 15) ∧
    (∃ t, exec (.addReg 1 1) (withRegs [(1, 0xFF)]) = .next t ∧ t.reg vf ≠ (withRegs [(1, 0xFF)]).reg vf) :=
  ⟨⟨_, rfl, by decide⟩, _, rfl, by decide⟩

theorem witness_EachStateHasItsWriters : (∃ t, exec (.ldI 5) State.reset = .next t ∧ t.i ≠ State.reset.i) ∧
    (∃ t, exec (.call 5) State.reset = .next t ∧ t.stack ≠ State.reset.stack ∧ t.sp ≠ State.reset.sp) ∧
    (∃ t, exec (.ldDt 0) (withRegs [(0, 1)]) = .next t ∧ t.dt ≠ State.reset.dt) ∧
    (∃ t, exec (.ldSt 0) (withRegs [(0, 1)]) = .next t ∧ t.st ≠ State.reset.st) ∧
    (∃ t, exec .cls { State.reset with fb := Framebuffer.flipPixel Framebuffer.clear 0 0 } = .next t ∧
      t.fb ≠ Framebuffer.flipPixel Framebuffer.clear 0 0 ∧ t.draw ≠ State.reset.draw) ∧
    (∃ t, exec (.store 0) (State.reset.setI 0) = .next t ∧ t.readMem 0 ≠ State.reset.readMem 0) ∧
    (∃ t, exec (.skp 0) (State.reset.setKey 0 true) = .next t ∧ t.keyDown 0 ≠ (State.reset.setKey 0 true).keyDown 0) :=
  ⟨⟨_, rfl, by decide⟩, ⟨_, rfl, by decide⟩, ⟨_, rfl, by decide⟩, ⟨_, rfl, by decide⟩, ⟨_, rfl, by decide⟩, ⟨_, rfl, by decide⟩,
    _, rfl, by decide⟩

theorem witness_ProgramCounterFollowsTheClass : (∃ t, exec (.ldKey 0) State.reset = .next t) ∧ (Instr.ldKey 0).jumps = false ∧
    (∃ t, exec (.seReg 0 0) State.reset = .next t) ∧ (Instr.seReg 0 0).jumps = false := ⟨⟨_, rfl⟩, rfl, ⟨_, rfl⟩, rfl⟩

theorem witness_OnlyRndReadsTheRandomByte : (∀ x nn, Instr.addI 3 ≠ .rnd x nn) ∧ ∃ t, exec (.addI 3) State.reset = .next t :=
  ⟨fun _ _ => nofun, _, rfl⟩

theorem witness_StackPointerNeverWraps : (∃ nnn, Instr.call 0x200 = .call nnn) ∧ { State.reset with sp := 15 }.sp.val = 15 ∧
    State.reset.sp.val = 0 := ⟨⟨_, rfl⟩, rfl, rfl⟩

theorem witness_FifteenCallsNest : State.reset.sp.val = 0 ∧ State.reset.status = .run ∧
    (List.replicate 15 (0x200 : Addr)).length ≤ 15 ∧ (List.replicate 16 (0x200 : Addr)).length = 16 := by decide

theorem witness_StaleStackEntriesAreUnobservable : State.reset.sameButStale { State.reset with stack := Vector.replicate 16 7 } ∧
    ∃ t, State.reset.deliver Config.standard .timerTick = .next t :=
  ⟨⟨rfl, fun _ h0 h => absurd h0 (Nat.not_lt.mpr h)⟩, _, rfl⟩

theorem witness_StoredCodeIsFetched : (0 : Reg).toNat + 1 ≤ (1 : Reg).toNat ∧ (14 : Reg).toNat + 1 ≤ (15 : Reg).toNat ∧
    (State.reset.pc.toNat + 2) % 4096 = ((State.reset.setI 0x202).i.toNat + (0 : Reg).toNat) % 4096 := by decide

theorem witness_ReturnResumesAfterTheCall : State.reset.sp.val ≠ 15 ∧ { State.reset with sp := 14 }.sp.val ≠ 15 := by decide

theorem witness_LoadRestoresWhatStoreSaved : (0 : Reg).toNat ≤ (0 : Reg).toNat ∧ (14 : Reg).toNat ≤ (15 : Reg).toNat := by decide

theorem witness_FatalFaultsArePrecise : (ready 0x00EE).status ≠ .halt ∧
    ∃ t, (ready 0x00EE).deliver Config.standard (.step 0) = .next t ∧ t.status = .halt := ⟨by decide, _, rfl, by decide⟩

theorem witness_ResetLeavesTheResetState : Config.standard.wf = true ∧ Config.lower.wf = true := test_standard_wf

theorem witness_LoadCopiesTheImage : Config.lower.wf = true ∧ State.reset.loadable = true ∧
    (List.replicate 4016 (0 : Byte)).length ≤ 4096 - Config.lower.loadAddr ∧
    (List.replicate 3584 (0 : Byte)).length ≤ 4096 - Config.standard.loadAddr := by
  rw [List.length_replicate, List.length_replicate]; decide

theorem witness_LoadsThatHaveNoSuccessor : Config.standard.wf = true ∧ State.reset.loadable = true ∧
    4096 - Config.standard.loadAddr < (List.replicate 3585 (0 : Byte)).length ∧ State.reset.status ≠ .halt ∧
    (∃ t, State.reset.deliver Config.standard (.load []) = .next t) ∧
    (∃ t, State.reset.deliver Config.standard (.step 0) = .next t) ∧ waiting.loadable = false ∧
    (∃ t, waiting.deliver Config.standard .timerTick = .next t) ∧
    (∃ t, waiting.deliver Config.standard (.keyPress 15) = .next t) := by
  rw [List.length_replicate]
  exact ⟨by decide, rfl, by decide, by decide, ⟨_, rfl⟩, ⟨_, rfl⟩, rfl, ⟨_, rfl⟩, _, rfl⟩

theorem witness_TimerTickRule : halted.status = .halt ∧ waiting.status ≠ .halt ∧ (State.reset.setSt 1).status ≠ .halt := by
  decide

theorem witness_KeyEventRules : waiting.status ≠ .halt ∧ State.reset.status ≠ .halt := by decide

theorem witness_StepKeepsCoherence : (waiting.coherent = true ∧ ∃ t, step waiting = .next t) ∧
    (halted.coherent = true ∧ { halted with inputs := [.reset] }.coherent = true ∧
      ∃ t, step { halted with inputs := [.reset] } = .next t) :=
  ⟨⟨by decide, _, rfl⟩, by decide, by decide, _, rfl⟩

theorem witness_WaitingStepsRunTheKeyWait : waiting.coherent = true ∧ waiting.status = .wait ∧
    ∀ j, waiting.keyDown j = false := by decide

theorem witness_PressEndsTheWait : waiting.coherent = true ∧ waiting.status = .wait ∧
    (∀ j, waiting.keyDown j = false) ∧ (waiting.setKey 3 true).coherent = true ∧ (waiting.setKey 3 true).status = .wait := by
  decide

end Sys2Proof.Tests
end

section
/-! SUPPORT. The settled statements on control flow (spec 41_control_flow.md). -/

namespace Sys2Proof.Machine

/-- The meaning of 1nnn is `Jump(nnn)` and nothing more (R66, R74). -/
theorem exec_jp (nnn : Addr) (s : State) : exec (.jp nnn) s = .next (s.jumpTo (zextAddr nnn)) := rfl

/-- `Jump` writes the program counter alone (R66). -/
theorem jumpTo_frame (s : State) (t : Word) : s.jumpTo t = { s with pc := (s.jumpTo t).pc } := rfl

/-- Settles O13: format A gives the word, and `Jump` to the zero-extended operand gives the target and the frame. -/
theorem jumpRule : Obligations.JumpRule := by
  unfold Obligations.JumpRule
  intro nnn
  constructor
  · exact encodeA_toNat 0x1#4 nnn
  · intro s
    have target : (s.jumpTo (zextAddr nnn)).pc.toNat = nnn.toNat := by
      rw [State.jumpTo_pc, zextAddr_toNat]
    exact ⟨s.jumpTo (zextAddr nnn), exec_jp nnn s, target, jumpTo_frame s _⟩

end Sys2Proof.Machine
end

section
/-! SUPPORT. The settled statements on register loads and the flagless addition (spec 42_alu.md), with the one effect they
share: a register written and `pc` on the next instruction. -/

namespace Sys2Proof.Machine

/-! ## One register written, then `Next` (R12, R66) -/

/-- The write touches the register file and `Next` touches `pc`. -/
theorem setReg_advance_frame (s : State) (x : Reg) (b : Byte) :
    (s.setReg x b).advance = { s with v := (s.setReg x b).advance.v, pc := (s.setReg x b).advance.pc } := rfl

theorem setReg_advance_pcNext (s : State) (x : Reg) (b : Byte) : s.pcNext (s.setReg x b).advance :=
  advance_pc_toNat (s.setReg x b)

theorem setReg_advance_othersKept (s : State) (x : Reg) (b : Byte) : s.othersKept (s.setReg x b).advance x :=
  fun r hr => reg_setReg_other s x r b hr

/-- An instruction that writes `b` to Vx and completes with `Next`: its outcome, frame, `pc` and registers. -/
theorem exec_registerWrite_effect {i : Instr} {s : State} {x : Reg} {b : Byte}
    (h : exec i s = .next (s.setReg x b).advance) :
    ∃ t, exec i s = .next t ∧ t = { s with v := t.v, pc := t.pc } ∧ s.pcNext t ∧ t.reg x = b ∧ s.othersKept t x :=
  ⟨(s.setReg x b).advance, h, setReg_advance_frame s x b, setReg_advance_pcNext s x b, reg_setReg_self s x b,
    setReg_advance_othersKept s x b⟩

/-! ## The meanings -/

theorem exec_ldImm (x : Reg) (nn : Byte) (s : State) : exec (.ldImm x nn) s = .next (s.setReg x nn).advance := rfl

theorem exec_ldReg (x y : Reg) (s : State) : exec (.ldReg x y) s = .next (s.setReg x (s.reg y)).advance := rfl

theorem exec_ldFromDt (x : Reg) (s : State) : exec (.ldFromDt x) s = .next (s.setReg x s.dt).advance := rfl

theorem exec_addImm (x : Reg) (nn : Byte) (s : State) :
    exec (.addImm x nn) s = .next (s.setReg x (addByte (s.reg x) nn)).advance := rfl

/-! ## The obligations -/

/-- The word of Fx07: format X is format XNN with the selector as its low byte (R53). -/
theorem encode_ldFromDt_toNat (x : Reg) : (encode (.ldFromDt x)).toNat = 0xF007 + x.toNat * 256 := by
  have word : (encode (.ldFromDt x)).toNat = 0xF000 + x.toNat * 256 + 0x07 := encodeXNN_toNat 0xF#4 x 0x07#8
  omega

/-- Settles O18: each of the three is a register write of its source, then `Next`. -/
theorem registerLoadRules : Obligations.RegisterLoadRules := by
  unfold Obligations.RegisterLoadRules
  refine ⟨fun x nn => ⟨?_, fun s => ?_⟩, fun x y => ⟨?_, fun s => ?_⟩, fun x => ⟨?_, fun s => ?_⟩⟩
  · exact encodeXNN_toNat 0x6#4 x nn
  · exact exec_registerWrite_effect (exec_ldImm x nn s)
  · exact encodeXY_toNat 0x8#4 x y 0x0#4
  · exact exec_registerWrite_effect (exec_ldReg x y s)
  · exact encode_ldFromDt_toNat x
  · exact exec_registerWrite_effect (exec_ldFromDt x s)

/-- Settles O20: a register write of the sum, then `Next`; VF is one of the other registers unless it is Vx. -/
theorem addImmediateRule : Obligations.AddImmediateRule := by
  unfold Obligations.AddImmediateRule
  intro x nn
  constructor
  · exact encodeXNN_toNat 0x7#4 x nn
  · intro s
    obtain ⟨t, outcome, frame, next, written, others⟩ := exec_registerWrite_effect (exec_addImm x nn s)
    have sum : (t.reg x).toNat = ((s.reg x).toNat + nn.toNat) % 256 := by
      rw [written, addByte_toNat]
    exact ⟨t, outcome, frame, next, sum, others⟩

end Sys2Proof.Machine
end

section
/-! SUPPORT. The settled statements on the index register (spec 43_index_memory.md), with the one effect they share: I written
and `pc` on the next instruction. -/

namespace Sys2Proof.Machine

/-! ## I written, then `Next` (R66) -/

/-- The write touches I and `Next` touches `pc`. -/
theorem setI_advance_frame (s : State) (w : Word) :
    (s.setI w).advance = { s with i := (s.setI w).advance.i, pc := (s.setI w).advance.pc } := rfl

theorem setI_advance_pcNext (s : State) (w : Word) : s.pcNext (s.setI w).advance := advance_pc_toNat (s.setI w)

/-- An instruction that writes `w` to I and completes with `Next`: its outcome, frame, `pc` and I. -/
theorem exec_indexWrite_effect {i : Instr} {s : State} {w : Word} (h : exec i s = .next (s.setI w).advance) :
    ∃ t, exec i s = .next t ∧ t = { s with i := t.i, pc := t.pc } ∧ s.pcNext t ∧ t.i = w :=
  ⟨(s.setI w).advance, h, setI_advance_frame s w, setI_advance_pcNext s w, rfl⟩

/-! ## The meanings -/

theorem exec_ldI (nnn : Addr) (s : State) : exec (.ldI nnn) s = .next (s.setI (zextAddr nnn)).advance := rfl

theorem exec_ldFont (x : Reg) (s : State) : exec (.ldFont x) s = .next (s.setI (s.glyphAddr x)).advance := rfl

/-! ## The obligation -/

/-- A word of family F: the register's nibble added to the word whose register is V0 (R53). -/
theorem encodeXNN_familyF_toNat (x : Reg) (nn : Byte) :
    (encodeXNN 0xF#4 x nn).toNat = 0xF000 + nn.toNat + x.toNat * 256 := by
  have word : (encodeXNN 0xF#4 x nn).toNat = 0xF000 + x.toNat * 256 + nn.toNat := encodeXNN_toNat 0xF#4 x nn
  omega

/-- Settles O25: each of the two is a write of I, then `Next`; what is written is the zero-extended operand or the address of
the glyph. -/
theorem indexLoadRules : Obligations.IndexLoadRules := by
  unfold Obligations.IndexLoadRules
  refine ⟨fun nnn => ⟨?_, fun s => ?_⟩, fun x => ⟨?_, fun s => ?_⟩⟩
  · exact encodeA_toNat 0xA#4 nnn
  · obtain ⟨t, outcome, frame, next, written⟩ := exec_indexWrite_effect (exec_ldI nnn s)
    have operand : t.i.toNat = nnn.toNat := by rw [written, zextAddr_toNat]
    exact ⟨t, outcome, frame, next, operand⟩
  · exact encodeXNN_familyF_toNat x 0x29#8
  · obtain ⟨t, outcome, frame, next, written⟩ := exec_indexWrite_effect (exec_ldFont x s)
    have glyph : t.i.toNat = 5 * ((s.reg x).toNat % 16) := by rw [written, glyphAddr_toNat]
    exact ⟨t, outcome, frame, next, glyph⟩

end Sys2Proof.Machine
end

section
/-! SUPPORT. The settled statement on clearing the screen (spec 44_display.md). -/

namespace Sys2Proof.Machine

/-- The meaning of 00E0 is a framebuffer of pixels off displayed, then `Next` (R66, R103). -/
theorem exec_cls (s : State) : exec .cls s = .next (s.display Framebuffer.clear).advance := rfl

/-- Displaying touches the framebuffer and DRAW, and `Next` touches `pc`. -/
theorem display_advance_frame (s : State) (fb : Framebuffer) :
    (s.display fb).advance =
      { s with fb := (s.display fb).advance.fb, draw := (s.display fb).advance.draw, pc := (s.display fb).advance.pc } := rfl

theorem display_advance_pcNext (s : State) (fb : Framebuffer) : s.pcNext (s.display fb).advance :=
  advance_pc_toNat (s.display fb)

/-- Settles O30: what is displayed is the cleared framebuffer, of which every pixel is off. -/
theorem clearScreenRule : Obligations.ClearScreenRule := by
  unfold Obligations.ClearScreenRule
  refine ⟨rfl, fun s => ?_⟩
  have drawSet : (s.display Framebuffer.clear).advance.draw = true := by
    rw [State.advance_draw, State.display_draw]
  have pixelsOff : ∀ r c, r < 32 → c < 64 →
      Framebuffer.pixel (s.display Framebuffer.clear).advance.fb r c = false := by
    intro r c _ _
    rw [State.advance_fb, State.display_fb, pixel_clear]
  exact ⟨(s.display Framebuffer.clear).advance, exec_cls s, display_advance_frame s _, display_advance_pcNext s _, drawSet,
    pixelsOff⟩

end Sys2Proof.Machine
end

section
/-! SUPPORT. The settled statement on the delay timer (spec 45_keypad_timer.md). -/

namespace Sys2Proof.Machine

/-- The meaning of Fx15 is Vx written to the delay timer, then `Next` (R66, R113). -/
theorem exec_ldDt (x : Reg) (s : State) : exec (.ldDt x) s = .next (s.setDt (s.reg x)).advance := rfl

/-- The write touches the delay timer and `Next` touches `pc`. -/
theorem setDt_advance_frame (s : State) (b : Byte) :
    (s.setDt b).advance = { s with dt := (s.setDt b).advance.dt, pc := (s.setDt b).advance.pc } := rfl

theorem setDt_advance_pcNext (s : State) (b : Byte) : s.pcNext (s.setDt b).advance := advance_pc_toNat (s.setDt b)

/-- Settles O34: format X gives the word; the byte written is Vx, and `Next` keeps the timer. -/
theorem delayTimerWriteRule : Obligations.DelayTimerWriteRule := by
  unfold Obligations.DelayTimerWriteRule
  intro x
  constructor
  · exact encodeXNN_familyF_toNat x 0x15#8
  · intro s
    have written : (s.setDt (s.reg x)).advance.dt = s.reg x := by
      rw [State.advance_dt, State.setDt_dt]
    exact ⟨(s.setDt (s.reg x)).advance, exec_ldDt x s, setDt_advance_frame s _, setDt_advance_pcNext s _, written⟩

end Sys2Proof.Machine
end

section
/-! SUPPORT. The settled statements on the decoder and the encoder (spec 30_encoding.md). -/

namespace Sys2Proof

/-! ## A word with a known family -/

theorem encodeA_of_topNibble {op : Word} {f : Nibble} (h : topNibble op = f) : encodeA f (fieldNNN op) = op :=
  h ▸ encodeA_fields op

theorem encodeXNN_of_topNibble {op : Word} {f : Nibble} (h : topNibble op = f) :
    encodeXNN f (fieldX op) (fieldNN op) = op :=
  h ▸ encodeXNN_fields op

theorem encodeXY_of_topNibble {op : Word} {f : Nibble} (h : topNibble op = f) :
    encodeXY f (fieldX op) (fieldY op) (fieldN op) = op :=
  h ▸ encodeXY_fields op

/-- A format XY word with a known low nibble. -/
theorem encodeXY_of_topNibble_fieldN {op : Word} {f n : Nibble} (h : topNibble op = f) (hn : fieldN op = n) :
    encodeXY f (fieldX op) (fieldY op) n = op :=
  hn ▸ encodeXY_of_topNibble h

/-- A format X word: the low byte is known. -/
theorem encodeXNN_of_topNibble_fieldNN {op : Word} {f : Nibble} {nn : Byte} (h : topNibble op = f)
    (hn : fieldNN op = nn) : encodeXNN f (fieldX op) nn = op :=
  hn ▸ encodeXNN_of_topNibble h

/-! ## The families the decoder takes apart further (R54, R56) -/

theorem decode_family0 (op : Word) (h : topNibble op = 0x0#4) : decode op = decodeSystem op := by
  simp only [decode, h]

theorem decode_family5 (op : Word) (h : topNibble op = 0x5#4) :
    decode op = decodeLowZero op (.seReg (fieldX op) (fieldY op)) := by
  simp only [decode, h]

theorem decode_family9 (op : Word) (h : topNibble op = 0x9#4) :
    decode op = decodeLowZero op (.sneReg (fieldX op) (fieldY op)) := by
  simp only [decode, h]

theorem decode_familyF (op : Word) (h : topNibble op = 0xF#4) : decode op = decodeMisc op := by
  simp only [decode, h]; rfl

/-- The sixteenth family is what the other fifteen leave. -/
theorem topNibble_eq_familyF (f : Nibble) (h0 : f ≠ 0x0#4) (h1 : f ≠ 0x1#4) (h2 : f ≠ 0x2#4) (h3 : f ≠ 0x3#4)
    (h4 : f ≠ 0x4#4) (h5 : f ≠ 0x5#4) (h6 : f ≠ 0x6#4) (h7 : f ≠ 0x7#4) (h8 : f ≠ 0x8#4) (h9 : f ≠ 0x9#4)
    (hA : f ≠ 0xA#4) (hB : f ≠ 0xB#4) (hC : f ≠ 0xC#4) (hD : f ≠ 0xD#4) (hE : f ≠ 0xE#4) : f = 0xF#4 := by
  bv_omega

/-- Families 5 and 9 decode a word only with its low nibble 0. -/
theorem decodeLowZero_ok {op : Word} {i j : Instr} (h : decodeLowZero op i = .ok j) : fieldN op = 0x0#4 ∧ i = j := by
  unfold decodeLowZero at h
  split at h
  · next hn => exact ⟨hn, Except.ok.inj h⟩
  · cases h

/-! ## Decoding an encoded instruction -/

/-- Settles O1, format by format: each field of the word is the operand it was made of, and the fixed fields select the row. -/
theorem decodeInvertsEncode : Obligations.DecodeInvertsEncode := by
  unfold Obligations.DecodeInvertsEncode
  intro i
  cases i
  case cls | ret => rfl
  case jp | call | ldI | jpV0 => simp only [encode, decode, topNibble_encodeA, fieldNNN_encodeA]
  case seImm | sneImm | ldImm | addImm | rnd =>
    simp only [encode, decode, topNibble_encodeXNN, fieldX_encodeXNN, fieldNN_encodeXNN]
  case seReg | sneReg =>
    simp only [encode, decode, decodeLowZero, topNibble_encodeXY, fieldX_encodeXY, fieldY_encodeXY, fieldN_encodeXY]
  case ldReg | orReg | andReg | xorReg | addReg | subReg | shr | subn | shl =>
    simp only [encode, decode, decodeAlu, topNibble_encodeXY, fieldX_encodeXY, fieldY_encodeXY, fieldN_encodeXY]
  case drw => simp only [encode, decode, topNibble_encodeXY, fieldX_encodeXY, fieldY_encodeXY, fieldN_encodeXY]
  case skp | sknp => simp only [encode, decode, decodeKey, topNibble_encodeXNN, fieldX_encodeXNN, fieldNN_encodeXNN]
  case ldFromDt | ldKey | ldDt | ldSt | addI | ldFont | ldBcd | store | load =>
    rw [encode, decode_familyF _ (topNibble_encodeXNN _ _ _)]
    simp only [decodeMisc, fieldX_encodeXNN, fieldNN_encodeXNN]

/-! ## Encoding a decoded word -/

theorem encode_of_decodeSystem {op : Word} {i : Instr} (h : decodeSystem op = .ok i) : encode i = op := by
  unfold decodeSystem at h
  split at h <;> cases h <;> rfl

theorem encode_of_decodeAlu {op : Word} {i : Instr} (ht : topNibble op = 0x8#4) (h : decodeAlu op = .ok i) :
    encode i = op := by
  unfold decodeAlu at h
  split at h <;> cases h <;> next hn => exact encodeXY_of_topNibble_fieldN ht hn

theorem encode_of_decodeKey {op : Word} {i : Instr} (ht : topNibble op = 0xE#4) (h : decodeKey op = .ok i) :
    encode i = op := by
  unfold decodeKey at h
  split at h <;> cases h <;> next hn => exact encodeXNN_of_topNibble_fieldNN ht hn

theorem encode_of_decodeMisc {op : Word} {i : Instr} (ht : topNibble op = 0xF#4) (h : decodeMisc op = .ok i) :
    encode i = op := by
  unfold decodeMisc at h
  split at h <;> cases h <;> next hn => exact encodeXNN_of_topNibble_fieldNN ht hn

/-- Settles O2, family by family: the word is put together again from the fields the decoder read and the ones it fixed. -/
theorem encodeInvertsDecode : Obligations.EncodeInvertsDecode := by
  unfold Obligations.EncodeInvertsDecode
  intro op i h
  unfold decode at h
  split at h
  next => exact encode_of_decodeSystem h
  next jp => cases h; exact encodeA_of_topNibble jp
  next call => cases h; exact encodeA_of_topNibble call
  next seImm => cases h; exact encodeXNN_of_topNibble seImm
  next sneImm => cases h; exact encodeXNN_of_topNibble sneImm
  next seReg => obtain ⟨low, rfl⟩ := decodeLowZero_ok h; exact encodeXY_of_topNibble_fieldN seReg low
  next ldImm => cases h; exact encodeXNN_of_topNibble ldImm
  next addImm => cases h; exact encodeXNN_of_topNibble addImm
  next alu => exact encode_of_decodeAlu alu h
  next sneReg => obtain ⟨low, rfl⟩ := decodeLowZero_ok h; exact encodeXY_of_topNibble_fieldN sneReg low
  next ldI => cases h; exact encodeA_of_topNibble ldI
  next jpV0 => cases h; exact encodeA_of_topNibble jpV0
  next rnd => cases h; exact encodeXNN_of_topNibble rnd
  next drw => cases h; exact encodeXY_of_topNibble drw
  next key => exact encode_of_decodeKey key h
  next =>
    have misc : topNibble op = 0xF#4 := by apply topNibble_eq_familyF <;> assumption
    exact encode_of_decodeMisc misc h

/-! ## A word of a row is the word of an instruction of that row (R55) -/

theorem and_family (op : Word) : op &&& 0xF000 = encodeXNN (topNibble op) 0 0 := by
  conv => lhs; rw [← encodeXNN_fields op]
  exact encodeXNN_and_family _ _ _

theorem and_low (op : Word) : op &&& 0xF00F = encodeXY (topNibble op) 0 0 (fieldN op) := by
  conv => lhs; rw [← encodeXY_fields op]
  exact encodeXY_and_low _ _ _ _

theorem and_byte (op : Word) : op &&& 0xF0FF = encodeXNN (topNibble op) 0 (fieldNN op) := by
  conv => lhs; rw [← encodeXNN_fields op]
  exact encodeXNN_and_byte _ _ _

theorem eq_of_has_whole {op w : Word} {row : Row} (hrow : some ⟨w, 0xFFFF⟩ = some row) (h : row.has op = true) :
    w = op := by
  cases hrow
  have word : op &&& BitVec.allOnes 16 = w := beq_iff_eq.mp h
  rw [← word, BitVec.and_allOnes]

theorem topNibble_of_has_family {op : Word} {row : Row} (f : Nibble) (hrow : some ⟨encodeXNN f 0 0, 0xF000⟩ = some row)
    (h : row.has op = true) : topNibble op = f := by
  cases hrow
  have word : op &&& 0xF000 = encodeXNN f 0 0 := beq_iff_eq.mp h
  rw [and_family] at word
  simpa only [topNibble_encodeXNN] using congrArg topNibble word

theorem encodeXY_of_has_low {op : Word} {row : Row} (f n : Nibble)
    (hrow : some ⟨encodeXY f 0 0 n, 0xF00F⟩ = some row) (h : row.has op = true) :
    encodeXY f (fieldX op) (fieldY op) n = op := by
  cases hrow
  have word : op &&& 0xF00F = encodeXY f 0 0 n := beq_iff_eq.mp h
  rw [and_low] at word
  have family : topNibble op = f := by simpa only [topNibble_encodeXY] using congrArg topNibble word
  have low : fieldN op = n := by simpa only [fieldN_encodeXY] using congrArg fieldN word
  exact encodeXY_of_topNibble_fieldN family low

theorem encodeXNN_of_has_byte {op : Word} {row : Row} (f : Nibble) (nn : Byte)
    (hrow : some ⟨encodeXNN f 0 nn, 0xF0FF⟩ = some row) (h : row.has op = true) :
    encodeXNN f (fieldX op) nn = op := by
  cases hrow
  have word : op &&& 0xF0FF = encodeXNN f 0 nn := beq_iff_eq.mp h
  rw [and_byte] at word
  have family : topNibble op = f := by simpa only [topNibble_encodeXNN] using congrArg topNibble word
  have low : fieldNN op = nn := by simpa only [fieldNN_encodeXNN] using congrArg fieldNN word
  exact encodeXNN_of_topNibble_fieldNN family low

/-- Every word of a row is the word of an instruction of that row, row by row of R55. -/
theorem exists_encode_of_has {op : Word} {row : Row} (h : row.has op = true) :
    ∀ m : Nat, opcodeMap[m]? = some row → ∃ i : Instr, encode i = op ∧ i.rowIndex = m
  | 0, r => ⟨.cls, eq_of_has_whole r h, rfl⟩
  | 1, r => ⟨.ret, eq_of_has_whole r h, rfl⟩
  | 2, r => ⟨.jp _, encodeA_of_topNibble (topNibble_of_has_family 0x1#4 r h), rfl⟩
  | 3, r => ⟨.call _, encodeA_of_topNibble (topNibble_of_has_family 0x2#4 r h), rfl⟩
  | 4, r => ⟨.seImm _ _, encodeXNN_of_topNibble (topNibble_of_has_family 0x3#4 r h), rfl⟩
  | 5, r => ⟨.sneImm _ _, encodeXNN_of_topNibble (topNibble_of_has_family 0x4#4 r h), rfl⟩
  | 6, r => ⟨.seReg _ _, encodeXY_of_has_low 0x5#4 0x0#4 r h, rfl⟩
  | 7, r => ⟨.ldImm _ _, encodeXNN_of_topNibble (topNibble_of_has_family 0x6#4 r h), rfl⟩
  | 8, r => ⟨.addImm _ _, encodeXNN_of_topNibble (topNibble_of_has_family 0x7#4 r h), rfl⟩
  | 9, r => ⟨.ldReg _ _, encodeXY_of_has_low 0x8#4 0x0#4 r h, rfl⟩
  | 10, r => ⟨.orReg _ _, encodeXY_of_has_low 0x8#4 0x1#4 r h, rfl⟩
  | 11, r => ⟨.andReg _ _, encodeXY_of_has_low 0x8#4 0x2#4 r h, rfl⟩
  | 12, r => ⟨.xorReg _ _, encodeXY_of_has_low 0x8#4 0x3#4 r h, rfl⟩
  | 13, r => ⟨.addReg _ _, encodeXY_of_has_low 0x8#4 0x4#4 r h, rfl⟩
  | 14, r => ⟨.subReg _ _, encodeXY_of_has_low 0x8#4 0x5#4 r h, rfl⟩
  | 15, r => ⟨.shr _ _, encodeXY_of_has_low 0x8#4 0x6#4 r h, rfl⟩
  | 16, r => ⟨.subn _ _, encodeXY_of_has_low 0x8#4 0x7#4 r h, rfl⟩
  | 17, r => ⟨.shl _ _, encodeXY_of_has_low 0x8#4 0xE#4 r h, rfl⟩
  | 18, r => ⟨.sneReg _ _, encodeXY_of_has_low 0x9#4 0x0#4 r h, rfl⟩
  | 19, r => ⟨.ldI _, encodeA_of_topNibble (topNibble_of_has_family 0xA#4 r h), rfl⟩
  | 20, r => ⟨.jpV0 _, encodeA_of_topNibble (topNibble_of_has_family 0xB#4 r h), rfl⟩
  | 21, r => ⟨.rnd _ _, encodeXNN_of_topNibble (topNibble_of_has_family 0xC#4 r h), rfl⟩
  | 22, r => ⟨.drw _ _ _, encodeXY_of_topNibble (topNibble_of_has_family 0xD#4 r h), rfl⟩
  | 23, r => ⟨.skp _, encodeXNN_of_has_byte 0xE#4 0x9E#8 r h, rfl⟩
  | 24, r => ⟨.sknp _, encodeXNN_of_has_byte 0xE#4 0xA1#8 r h, rfl⟩
  | 25, r => ⟨.ldFromDt _, encodeXNN_of_has_byte 0xF#4 0x07#8 r h, rfl⟩
  | 26, r => ⟨.ldKey _, encodeXNN_of_has_byte 0xF#4 0x0A#8 r h, rfl⟩
  | 27, r => ⟨.ldDt _, encodeXNN_of_has_byte 0xF#4 0x15#8 r h, rfl⟩
  | 28, r => ⟨.ldSt _, encodeXNN_of_has_byte 0xF#4 0x18#8 r h, rfl⟩
  | 29, r => ⟨.addI _, encodeXNN_of_has_byte 0xF#4 0x1E#8 r h, rfl⟩
  | 30, r => ⟨.ldFont _, encodeXNN_of_has_byte 0xF#4 0x29#8 r h, rfl⟩
  | 31, r => ⟨.ldBcd _, encodeXNN_of_has_byte 0xF#4 0x33#8 r h, rfl⟩
  | 32, r => ⟨.store _, encodeXNN_of_has_byte 0xF#4 0x55#8 r h, rfl⟩
  | 33, r => ⟨.load _, encodeXNN_of_has_byte 0xF#4 0x65#8 r h, rfl⟩
  | _ + 34, r => nomatch r

/-- A word of a row decodes to an instruction of that row. -/
theorem decode_of_has {op : Word} {row : Row} {m : Nat} (hrow : opcodeMap[m]? = some row) (h : row.has op = true) :
    ∃ i, decode op = .ok i ∧ i.rowIndex = m := by
  obtain ⟨i, rfl, hi⟩ := exists_encode_of_has h m hrow
  exact ⟨i, decodeInvertsEncode i, hi⟩

/-- The word of an instruction is in the row of the instruction: the laws of family `Row`, for every instruction at once. -/
theorem encode_in_row (i : Instr) : Laws.Row.Statement i := by
  cases i with
  | cls => exact Laws.Row.cls
  | ret => exact Laws.Row.ret
  | jp nnn => exact Laws.Row.jp nnn
  | call nnn => exact Laws.Row.call nnn
  | seImm x nn => exact Laws.Row.seImm x nn
  | sneImm x nn => exact Laws.Row.sneImm x nn
  | seReg x y => exact Laws.Row.seReg x y
  | ldImm x nn => exact Laws.Row.ldImm x nn
  | addImm x nn => exact Laws.Row.addImm x nn
  | ldReg x y => exact Laws.Row.ldReg x y
  | orReg x y => exact Laws.Row.orReg x y
  | andReg x y => exact Laws.Row.andReg x y
  | xorReg x y => exact Laws.Row.xorReg x y
  | addReg x y => exact Laws.Row.addReg x y
  | subReg x y => exact Laws.Row.subReg x y
  | shr x y => exact Laws.Row.shr x y
  | subn x y => exact Laws.Row.subn x y
  | shl x y => exact Laws.Row.shl x y
  | sneReg x y => exact Laws.Row.sneReg x y
  | ldI nnn => exact Laws.Row.ldI nnn
  | jpV0 nnn => exact Laws.Row.jpV0 nnn
  | rnd x nn => exact Laws.Row.rnd x nn
  | drw x y n => exact Laws.Row.drw x y n
  | skp x => exact Laws.Row.skp x
  | sknp x => exact Laws.Row.sknp x
  | ldFromDt x => exact Laws.Row.ldFromDt x
  | ldKey x => exact Laws.Row.ldKey x
  | ldDt x => exact Laws.Row.ldDt x
  | ldSt x => exact Laws.Row.ldSt x
  | addI x => exact Laws.Row.addI x
  | ldFont x => exact Laws.Row.ldFont x
  | ldBcd x => exact Laws.Row.ldBcd x
  | store x => exact Laws.Row.store x
  | load x => exact Laws.Row.load x

/-! ## The opcode map -/

theorem decodeSystem_error {op : Word} {e : DecodeError} (h : decodeSystem op = .error e) : e = .unknownOpcode op := by
  unfold decodeSystem at h
  split at h <;> cases h
  rfl

theorem decodeLowZero_error {op : Word} {i : Instr} {e : DecodeError} (h : decodeLowZero op i = .error e) :
    e = .unknownOpcode op := by
  unfold decodeLowZero at h
  split at h <;> cases h
  rfl

theorem decodeAlu_error {op : Word} {e : DecodeError} (h : decodeAlu op = .error e) : e = .unknownOpcode op := by
  unfold decodeAlu at h
  split at h <;> cases h
  rfl

theorem decodeKey_error {op : Word} {e : DecodeError} (h : decodeKey op = .error e) : e = .unknownOpcode op := by
  unfold decodeKey at h
  split at h <;> cases h
  rfl

theorem decodeMisc_error {op : Word} {e : DecodeError} (h : decodeMisc op = .error e) : e = .unknownOpcode op := by
  unfold decodeMisc at h
  split at h <;> cases h
  rfl

/-- What the decoder reports of a word that is no instruction is that word. -/
theorem decode_error {op : Word} {e : DecodeError} (h : decode op = .error e) : e = .unknownOpcode op := by
  unfold decode at h
  split at h
  case h_1 => exact decodeSystem_error h
  case h_6 | h_10 => exact decodeLowZero_error h
  case h_9 => exact decodeAlu_error h
  case h_15 => exact decodeKey_error h
  case h_16 => exact decodeMisc_error h
  all_goals cases h

theorem decode_of_row (op : Word) (i : Instr) (h : decode op = .ok i) :
    ∃ row, opcodeMap[i.rowIndex]? = some row ∧ row.has op = true :=
  encodeInvertsDecode op i h ▸ encode_in_row i

theorem decode_unknown_iff (op : Word) :
    decode op = .error (.unknownOpcode op) ↔ ∀ row ∈ opcodeMap, row.has op = false := by
  constructor
  · intro unknown row hrow
    obtain ⟨m, hm⟩ := List.mem_iff_getElem?.mp hrow
    cases has : row.has op with
    | false => rfl
    | true =>
      obtain ⟨i, known, -⟩ := decode_of_has hm has
      rw [known] at unknown
      cases unknown
  · intro none
    cases h : decode op with
    | ok i =>
      obtain ⟨row, hrow, has⟩ := decode_of_row op i h
      rw [none row (List.mem_of_getElem? hrow)] at has
      cases has
    | error e => rw [decode_error h]

/-- The rows are disjoint: two rows of one word are the row of the instruction it decodes to. -/
theorem row_unique (op : Word) (m n : Nat) (a b : Row) (hm : opcodeMap[m]? = some a) (hn : opcodeMap[n]? = some b)
    (ha : a.has op = true) (hb : b.has op = true) : m = n := by
  obtain ⟨i, decodedI, rfl⟩ := decode_of_has hm ha
  obtain ⟨j, decodedJ, rfl⟩ := decode_of_has hn hb
  rw [decodedI] at decodedJ
  cases decodedJ
  rfl

theorem topNibble_eq_of_div {op : Word} {f : Nibble} (h : op.toNat / 4096 = f.toNat) : topNibble op = f :=
  BitVec.eq_of_toNat_eq (by rw [topNibble_toNat, h])

theorem decode_ok_family0 (op : Word) (i : Instr) (h : decode op = .ok i) (hop : op.toNat / 4096 = 0) :
    op = 0x00E0 ∨ op = 0x00EE := by
  rw [decode_family0 op (topNibble_eq_of_div hop)] at h
  unfold decodeSystem at h
  split at h
  · exact .inl rfl
  · exact .inr rfl
  · cases h

theorem decode_ok_lowZero (op : Word) (i : Instr) (h : decode op = .ok i) (hop : op.toNat / 4096 = 5 ∨ op.toNat / 4096 = 9) :
    op.toNat % 16 = 0 := by
  have low : fieldN op = 0x0#4 := by
    rcases hop with h5 | h9
    · rw [decode_family5 op (topNibble_eq_of_div h5)] at h
      exact (decodeLowZero_ok h).1
    · rw [decode_family9 op (topNibble_eq_of_div h9)] at h
      exact (decodeLowZero_ok h).1
  rw [← fieldN_toNat, low]
  rfl

/-- Settles O3: each clause is a lemma above. -/
theorem decodeFollowsTheOpcodeMap : Obligations.DecodeFollowsTheOpcodeMap :=
  ⟨rfl, decode_of_row, decode_unknown_iff, row_unique, decode_ok_family0, decode_ok_lowZero⟩

/-- Settles O4: the decoder computes on each of the twelve words. -/
theorem listedWordsDecode : Obligations.ListedWordsDecode :=
  ⟨rfl, rfl, rfl, rfl, rfl, rfl, rfl, rfl, rfl, rfl, rfl, rfl⟩

end Sys2Proof
end

section
/-! SUPPORT. What each instruction's meaning is, as one equation per outcome, and what any instruction leaves, said once: the
state after it is one of the states `Effect` lists. -/

namespace Sys2Proof.Machine

/-! ## The meanings -/

theorem exec_ret (s : State) (h : s.sp ≠ 0) : exec .ret s = .next (s.drop.jumpTo s.top) := if_neg h

theorem exec_ret_underflow (s : State) (h : s.sp = 0) :
    exec .ret s = .next (s.raise .stackUnderflow (encode .ret)) := if_pos h

theorem exec_call (nnn : Addr) (s : State) (h : s.sp ≠ 15) :
    exec (.call nnn) s = .next ((s.push (s.pc + 2)).jumpTo (zextAddr nnn)) := if_neg h

theorem exec_call_overflow (nnn : Addr) (s : State) (h : s.sp = 15) :
    exec (.call nnn) s = .next (s.raise .stackOverflow (encode (.call nnn))) := if_pos h

theorem exec_jpV0 (nnn : Addr) (s : State) :
    exec (.jpV0 nnn) s = .next (s.jumpTo (zextAddr nnn + zextByte (s.reg 0))) := rfl

theorem exec_seImm (x : Reg) (nn : Byte) (s : State) :
    exec (.seImm x nn) s = .next (s.skipIf (decide (s.reg x = nn))) := rfl

theorem exec_sneImm (x : Reg) (nn : Byte) (s : State) :
    exec (.sneImm x nn) s = .next (s.skipIf (decide (s.reg x ≠ nn))) := rfl

theorem exec_seReg (x y : Reg) (s : State) :
    exec (.seReg x y) s = .next (s.skipIf (decide (s.reg x = s.reg y))) := rfl

theorem exec_sneReg (x y : Reg) (s : State) :
    exec (.sneReg x y) s = .next (s.skipIf (decide (s.reg x ≠ s.reg y))) := rfl

theorem exec_orReg (x y : Reg) (s : State) :
    exec (.orReg x y) s = .next (s.setReg x (s.reg x ||| s.reg y)).advance := rfl

theorem exec_andReg (x y : Reg) (s : State) :
    exec (.andReg x y) s = .next (s.setReg x (s.reg x &&& s.reg y)).advance := rfl

theorem exec_xorReg (x y : Reg) (s : State) :
    exec (.xorReg x y) s = .next (s.setReg x (s.reg x ^^^ s.reg y)).advance := rfl

theorem exec_addReg (x y : Reg) (s : State) : exec (.addReg x y) s =
    .next (s.setResult x (addByte (s.reg x) (s.reg y)) (carryOut (s.reg x) (s.reg y))).advance := rfl

theorem exec_subReg (x y : Reg) (s : State) : exec (.subReg x y) s =
    .next (s.setResult x (subByte (s.reg x) (s.reg y)) (greater (s.reg x) (s.reg y))).advance := rfl

theorem exec_shr (x y : Reg) (s : State) : exec (.shr x y) s =
    .next (s.setResult x (shiftRight (s.reg y)) (bitOutRight (s.reg y))).advance := rfl

theorem exec_subn (x y : Reg) (s : State) : exec (.subn x y) s =
    .next (s.setResult x (subByte (s.reg y) (s.reg x)) (greater (s.reg y) (s.reg x))).advance := rfl

theorem exec_shl (x y : Reg) (s : State) : exec (.shl x y) s =
    .next (s.setResult x (shiftLeft (s.reg y)) (bitOutLeft (s.reg y))).advance := rfl

theorem exec_rnd (x : Reg) (nn : Byte) (s : State) :
    exec (.rnd x nn) s = .next (s.setReg x (s.rnd &&& nn)).advance := rfl

theorem exec_drw (x y : Reg) (n : Nibble) (s : State) : exec (.drw x y n) s =
    .next ((s.display (s.sprite x y n).fb).setReg vf (flagByte (s.sprite x y n).hit)).advance := rfl

theorem exec_skp_down (x : Reg) (s : State) (h : s.keyDown (s.keyOf x) = true) :
    exec (.skp x) s = .next ((s.setKey (s.keyOf x) false).skipIf true) := if_pos h

theorem exec_skp_up (x : Reg) (s : State) (h : s.keyDown (s.keyOf x) = false) :
    exec (.skp x) s = .next (s.skipIf false) := if_neg (Bool.not_eq_true _ ▸ h)

theorem exec_sknp (x : Reg) (s : State) :
    exec (.sknp x) s = .next (s.skipIf (!s.keyDown (s.keyOf x))) := rfl

theorem exec_ldKey_some (x : Reg) (k : Key) (s : State) (h : s.leastKeyDown = some k) :
    exec (.ldKey x) s = .next (((s.setReg x (k.setWidth 8)).setKey k false).setStatus .run).advance := by
  simp only [exec, execLdKey, h]

theorem exec_ldKey_none (x : Reg) (s : State) (h : s.leastKeyDown = none) :
    exec (.ldKey x) s = .next (s.setStatus .wait) := by
  simp only [exec, execLdKey, h]

theorem exec_ldSt (x : Reg) (s : State) : exec (.ldSt x) s = .next (s.setSt (s.reg x)).advance := rfl

theorem exec_addI (x : Reg) (s : State) : exec (.addI x) s = .next (s.setI (s.i + zextByte (s.reg x))).advance := rfl

theorem exec_ldBcd (x : Reg) (s : State) :
    exec (.ldBcd x) s = .next (s.writeMem (s.dataAddr 0) (bcdDigits (s.reg x))).advance := rfl

theorem exec_store (x : Reg) (s : State) :
    exec (.store x) s = .next (s.writeMem (s.dataAddr 0) (s.block x)).advance := rfl

theorem exec_load (x : Reg) (s : State) :
    exec (.load x) s = .next (s.loadRegs (List.range (x.toNat + 1))).advance := rfl

/-! ## The states an instruction can leave -/

/-- The states `i` can leave after `s`, by what it writes: one constructor per kind of effect, with what the kind says of the
instruction. -/
inductive Effect (i : Instr) (s : State) : State → Prop where
  | register (x : Reg) (b : Byte) (dest : i.namesDest x = true) : Effect i s (s.setReg x b).advance
  | result (x : Reg) (b : Byte) (f : Bool) (dest : i.namesDest x = true) (flag : i.writesFlag = true) :
      Effect i s (s.setResult x b f).advance
  | block (v : Vector Byte 16) (kept : ∀ r, i.namesDest r = false → { s with v := v }.reg r = s.reg r) :
      Effect i s { s with v := v }.advance
  | jump (w : Word) (jumps : i.jumps = true) : Effect i s (s.jumpTo w)
  | skip (c : Bool) (skips : i.skips = true) : Effect i s (s.skipIf c)
  | call (nnn : Addr) (instr : i = .call nnn) (room : s.sp ≠ 15) :
      Effect i s ((s.push (s.pc + 2)).jumpTo (zextAddr nnn))
  | ret (instr : i = .ret) (nonempty : s.sp ≠ 0) : Effect i s (s.drop.jumpTo s.top)
  | fatal (c : Cause) (jumps : i.jumps = true) : Effect i s (s.raise c (encode i))
  | index (w : Word) (writes : i.writesI = true) : Effect i s (s.setI w).advance
  | memory (a : Nat) (bs : List Byte) (stores : i.stores = true) : Effect i s (s.writeMem a bs).advance
  | clear (fb : Framebuffer) (draws : i.draws = true) : Effect i s (s.display fb).advance
  | draw (fb : Framebuffer) (f : Bool) (draws : i.draws = true) (flag : i.writesFlag = true) :
      Effect i s ((s.display fb).setReg vf (flagByte f)).advance
  | press (k : Key) (skips : i.skips = true) (consumes : i.consumesKey = true) :
      Effect i s ((s.setKey k false).skipIf true)
  | key (x : Reg) (k : Key) (instr : i = .ldKey x) :
      Effect i s (((s.setReg x (k.setWidth 8)).setKey k false).setStatus .run).advance
  | wait (x : Reg) (instr : i = .ldKey x) : Effect i s (s.setStatus .wait)
  | delay (x : Reg) (instr : i = .ldDt x) : Effect i s (s.setDt (s.reg x)).advance
  | sound (x : Reg) (instr : i = .ldSt x) : Effect i s (s.setSt (s.reg x)).advance

/-- A block load is a change of the registers it names. -/
theorem loadRegs_effect (x : Reg) (s : State) :
    Effect (.load x) s (s.loadRegs (List.range (x.toNat + 1))).advance := by
  rw [loadRegs_frame]
  refine .block _ fun r above => ?_
  have outside : r.toNat ∉ List.range (x.toNat + 1) := by
    rw [List.mem_range]
    have : ¬ r.toNat ≤ x.toNat := of_decide_eq_false above
    omega
  have inRange : ∀ k ∈ List.range (x.toNat + 1), k < 16 := fun k hk => by
    have := List.mem_range.mp hk
    omega
  rw [← loadRegs_frame, reg_loadRegs s _ inRange r, if_neg outside]

/-- Every instruction completes from every state, and leaves one of the listed states (R64, R120). -/
theorem exec_effect (i : Instr) (s : State) : ∃ t, exec i s = .next t ∧ Effect i s t := by
  cases i with
  | cls => exact ⟨_, exec_cls s, .clear _ rfl⟩
  | ret =>
    by_cases h : s.sp = 0
    · exact ⟨_, exec_ret_underflow s h, .fatal _ rfl⟩
    · exact ⟨_, exec_ret s h, .ret rfl h⟩
  | jp nnn => exact ⟨_, exec_jp nnn s, .jump _ rfl⟩
  | call nnn =>
    by_cases h : s.sp = 15
    · exact ⟨_, exec_call_overflow nnn s h, .fatal _ rfl⟩
    · exact ⟨_, exec_call nnn s h, .call nnn rfl h⟩
  | seImm x nn => exact ⟨_, exec_seImm x nn s, .skip _ rfl⟩
  | sneImm x nn => exact ⟨_, exec_sneImm x nn s, .skip _ rfl⟩
  | seReg x y => exact ⟨_, exec_seReg x y s, .skip _ rfl⟩
  | ldImm x nn => exact ⟨_, exec_ldImm x nn s, .register x _ (decide_eq_true rfl)⟩
  | addImm x nn => exact ⟨_, exec_addImm x nn s, .register x _ (decide_eq_true rfl)⟩
  | ldReg x y => exact ⟨_, exec_ldReg x y s, .register x _ (decide_eq_true rfl)⟩
  | orReg x y => exact ⟨_, exec_orReg x y s, .register x _ (decide_eq_true rfl)⟩
  | andReg x y => exact ⟨_, exec_andReg x y s, .register x _ (decide_eq_true rfl)⟩
  | xorReg x y => exact ⟨_, exec_xorReg x y s, .register x _ (decide_eq_true rfl)⟩
  | addReg x y => exact ⟨_, exec_addReg x y s, .result x _ _ (decide_eq_true rfl) rfl⟩
  | subReg x y => exact ⟨_, exec_subReg x y s, .result x _ _ (decide_eq_true rfl) rfl⟩
  | shr x y => exact ⟨_, exec_shr x y s, .result x _ _ (decide_eq_true rfl) rfl⟩
  | subn x y => exact ⟨_, exec_subn x y s, .result x _ _ (decide_eq_true rfl) rfl⟩
  | shl x y => exact ⟨_, exec_shl x y s, .result x _ _ (decide_eq_true rfl) rfl⟩
  | sneReg x y => exact ⟨_, exec_sneReg x y s, .skip _ rfl⟩
  | ldI nnn => exact ⟨_, exec_ldI nnn s, .index _ rfl⟩
  | jpV0 nnn => exact ⟨_, exec_jpV0 nnn s, .jump _ rfl⟩
  | rnd x nn => exact ⟨_, exec_rnd x nn s, .register x _ (decide_eq_true rfl)⟩
  | drw x y n => exact ⟨_, exec_drw x y n s, .draw _ _ rfl rfl⟩
  | skp x =>
    cases h : s.keyDown (s.keyOf x) with
    | true => exact ⟨_, exec_skp_down x s h, .press _ rfl rfl⟩
    | false => exact ⟨_, exec_skp_up x s h, .skip _ rfl⟩
  | sknp x => exact ⟨_, exec_sknp x s, .skip _ rfl⟩
  | ldFromDt x => exact ⟨_, exec_ldFromDt x s, .register x _ (decide_eq_true rfl)⟩
  | ldKey x =>
    cases h : s.leastKeyDown with
    | some k => exact ⟨_, exec_ldKey_some x k s h, .key x k rfl⟩
    | none => exact ⟨_, exec_ldKey_none x s h, .wait x rfl⟩
  | ldDt x => exact ⟨_, exec_ldDt x s, .delay x rfl⟩
  | ldSt x => exact ⟨_, exec_ldSt x s, .sound x rfl⟩
  | addI x => exact ⟨_, exec_addI x s, .index _ rfl⟩
  | ldFont x => exact ⟨_, exec_ldFont x s, .index _ rfl⟩
  | ldBcd x => exact ⟨_, exec_ldBcd x s, .memory _ _ rfl⟩
  | store x => exact ⟨_, exec_store x s, .memory _ _ rfl⟩
  | load x => exact ⟨_, exec_load x s, loadRegs_effect x s⟩

theorem exec_total (i : Instr) (s : State) : ∃ t, exec i s = .next t :=
  (exec_effect i s).imp fun _ => And.left

theorem effect_of_exec {i : Instr} {s t : State} (h : exec i s = .next t) : Effect i s t := by
  obtain ⟨u, outcome, effect⟩ := exec_effect i s
  rw [h] at outcome
  cases outcome
  exact effect

/-! ## Registers (R13, R14) -/

/-- Settles O36: of the effects only four write the register file, and each names what it writes. -/
theorem registersChangeOnlyAsNamed : Obligations.RegistersChangeOnlyAsNamed := by
  unfold Obligations.RegistersChangeOnlyAsNamed
  intro i s t r h changed
  cases effect_of_exec h
  case register x b dest =>
    by_cases hr : r = x
    · exact .inl (hr ▸ dest)
    · exact absurd (reg_setReg_other s x r b hr) changed
  case result x b f dest flag =>
    rw [reg_advance, reg_setResult] at changed
    by_cases hf : r = vf
    · exact .inr ⟨hf, flag⟩
    · by_cases hr : r = x
      · exact .inl (hr ▸ dest)
      · rw [if_neg hf, if_neg hr] at changed
        exact absurd rfl changed
  case block v kept =>
    cases dest : i.namesDest r with
    | true => exact .inl rfl
    | false => exact absurd (kept r dest) changed
  case draw fb f draws flag =>
    by_cases hf : r = vf
    · exact .inr ⟨hf, flag⟩
    · exact absurd (reg_setReg_other (s.display fb) vf r (flagByte f) hf) changed
  case key x k instr =>
    by_cases hr : r = x
    · exact .inl (instr ▸ decide_eq_true hr)
    · exact absurd (reg_setReg_other s x r (k.setWidth 8) hr) changed
  all_goals exact absurd rfl changed

/-! ## The rest of the state -/

/-- A key cell that a `false` written to `k` changed is `k`, and is up. -/
theorem keyDown_of_setKey_false_changed {u w : State} {j k : Key} (written : u.keyDown j = (w.setKey k false).keyDown j)
    (changed : u.keyDown j ≠ w.keyDown j) : u.keyDown j = false := by
  rw [keyDown_setKey] at written
  split at written
  · exact written
  · exact absurd written changed

section
variable {i : Instr} {s t : State} (h : exec i s = .next t)
include h

theorem writesI_of_i_changed (changed : t.i ≠ s.i) : i.writesI = true := by
  cases effect_of_exec h
  case index w writes => exact writes
  all_goals exact absurd rfl changed

theorem call_of_stack_changed (changed : t.stack ≠ s.stack) : ∃ nnn, i = .call nnn := by
  cases effect_of_exec h
  case call nnn instr room => exact ⟨nnn, instr⟩
  all_goals exact absurd rfl changed

theorem call_or_ret_of_sp_changed (changed : t.sp ≠ s.sp) : i = .ret ∨ ∃ nnn, i = .call nnn := by
  cases effect_of_exec h
  case call nnn instr room => exact .inr ⟨nnn, instr⟩
  case ret instr nonempty => exact .inl instr
  all_goals exact absurd rfl changed

theorem ldDt_of_dt_changed (changed : t.dt ≠ s.dt) : ∃ x, i = .ldDt x := by
  cases effect_of_exec h
  case delay x instr => exact ⟨x, instr⟩
  all_goals exact absurd rfl changed

theorem ldSt_of_st_changed (changed : t.st ≠ s.st) : ∃ x, i = .ldSt x := by
  cases effect_of_exec h
  case sound x instr => exact ⟨x, instr⟩
  all_goals exact absurd rfl changed

theorem draws_of_fb_changed (changed : t.fb ≠ s.fb) : i.draws = true := by
  cases effect_of_exec h
  case clear draws => exact draws
  case draw draws flag => exact draws
  all_goals exact absurd rfl changed

theorem draws_of_draw_changed (changed : t.draw ≠ s.draw) : i.draws = true := by
  cases effect_of_exec h
  case clear draws => exact draws
  case draw draws flag => exact draws
  all_goals exact absurd rfl changed

theorem stores_of_mem_changed (changed : t.mem ≠ s.mem) : i.stores = true := by
  cases effect_of_exec h
  case memory stores => exact stores
  all_goals exact absurd rfl changed

/-- A byte that reads otherwise is memory that changed. -/
theorem stores_of_readMem_changed (changed : ∃ a, t.readMem a ≠ s.readMem a) : i.stores = true := by
  obtain ⟨a, differs⟩ := changed
  exact stores_of_mem_changed h fun same => differs (readMem_eq_of_mem s t same a)

theorem consumesKey_of_keyDown_changed (k : Key) (changed : t.keyDown k ≠ s.keyDown k) :
    i.consumesKey = true ∧ t.keyDown k = false := by
  cases effect_of_exec h
  case press j skips consumes => exact ⟨consumes, keyDown_of_setKey_false_changed (w := s) rfl changed⟩
  case key x j instr => exact ⟨instr ▸ rfl, keyDown_of_setKey_false_changed (w := s) rfl changed⟩
  all_goals exact absurd rfl changed

end

/-- Settles O37: each clause is a lemma above. -/
theorem eachStateHasItsWriters : Obligations.EachStateHasItsWriters := by
  unfold Obligations.EachStateHasItsWriters
  intro i s t h
  exact ⟨writesI_of_i_changed h, call_of_stack_changed h, call_or_ret_of_sp_changed h, ldDt_of_dt_changed h,
    ldSt_of_st_changed h, draws_of_fb_changed h, draws_of_draw_changed h, stores_of_readMem_changed h,
    consumesKey_of_keyDown_changed h⟩

/-! ## The program counter (R66) -/

/-- Settles O38: an effect of the jump class is excluded, a skip moves `pc` by 2 or 4, a wait leaves it, and every other effect ends
with `Next`. -/
theorem programCounterFollowsTheClass : Obligations.ProgramCounterFollowsTheClass := by
  unfold Obligations.ProgramCounterFollowsTheClass
  intro i s t h noJump
  cases effect_of_exec h
  case jump w jumps => rw [jumps] at noJump; cases noJump
  case call nnn instr room => subst instr; cases noJump
  case ret instr nonempty => subst instr; cases noJump
  case fatal c jumps => rw [jumps] at noJump; cases noJump
  case skip c skips =>
    cases c
    · exact .inl (skipIf_pc_toNat s false)
    · exact .inr (.inl ⟨skips, skipIf_pc_toNat s true⟩)
  case press k skips consumes => exact .inr (.inl ⟨skips, skipIf_pc_toNat (s.setKey k false) true⟩)
  case wait x instr => exact .inr (.inr ⟨rfl, rfl, x, instr⟩)
  all_goals exact .inl (advance_pc_toNat _)

end Sys2Proof.Machine
end

section
/-! SUPPORT. The settled statements on call, return and the skips (spec 41_control_flow.md). -/

namespace Sys2Proof.Machine

/-! ## The stack pointer in range (R18) -/

theorem sp_succ_val {p : Fin 16} (h : p ≠ 15) : (p + 1).val = p.val + 1 := by
  revert p; decide

theorem sp_pred_val {p : Fin 16} (h : p ≠ 0) : (p - 1).val + 1 = p.val := by
  revert p; decide

theorem sp_succ_ne_zero {p : Fin 16} (h : p ≠ 15) : p + 1 ≠ 0 := by
  revert p; decide

/-- Taking a pushed entry back leaves everything but the entry as it was. -/
theorem drop_push (s : State) (w : Word) : (s.push w).drop = { s with stack := (s.push w).stack } := by
  have sp : s.sp + 1 - 1 = s.sp := drop_push_sp s w
  simp only [State.drop, State.push, sp]

theorem top_push_next_toNat (s : State) : (s.push (s.pc + 2)).top.toNat = (s.pc.toNat + 2) % 65536 := by
  rw [top_push]; exact advance_pc_toNat s

/-! ## Frames -/

theorem skipIf_frame (s : State) (c : Bool) : s.skipIf c = { s with pc := (s.skipIf c).pc } := rfl

theorem raise_frame (s : State) (c : Cause) (op : Word) :
    s.raise c op = { s with status := (s.raise c op).status, cause := (s.raise c op).cause,
                            outputs := (s.raise c op).outputs } := rfl

/-! ## Return and call -/

/-- Settles O12: the pop and the jump of a return, and the precise fault of an empty stack. -/
theorem returnRule : Obligations.ReturnRule := by
  unfold Obligations.ReturnRule
  refine ⟨rfl, fun s nonempty => ?_, fun s empty => ?_⟩
  · have ne : s.sp ≠ 0 := fun h => nonempty (congrArg Fin.val h)
    have popped : (s.drop.jumpTo s.top).sp.val = s.sp.val - 1 := Nat.eq_sub_of_add_eq (sp_pred_val ne)
    exact ⟨_, exec_ret s ne, rfl, popped, rfl⟩
  · exact ⟨_, exec_ret_underflow s (Fin.ext empty), rfl, rfl, rfl, raise_frame s _ _⟩

/-- Settles O15: the push and the jump of a call, and the precise fault of a full stack. -/
theorem callRule : Obligations.CallRule := by
  unfold Obligations.CallRule
  refine fun nnn => ⟨encodeA_toNat 0x2#4 nnn, fun s notFull => ?_, fun s full => ?_⟩
  · have room : s.sp ≠ 15 := fun h => notFull (congrArg Fin.val h)
    have kept : ∀ k : Fin 16, k ≠ s.sp + 1 → (s.push (s.pc + 2)).stack[k] = s.stack[k] := fun k other =>
      Vector.getElem_set_ne (s.sp + 1).isLt k.isLt fun h => other (Fin.ext h.symm)
    exact ⟨_, exec_call nnn s room, zextAddr_toNat nnn, sp_succ_val room, top_push_next_toNat s, kept, rfl⟩
  · exact ⟨_, exec_call_overflow nnn s (Fin.ext full), rfl, rfl, ⟨_, encodeA_toNat 0x2#4 nnn, rfl⟩, raise_frame s _ _⟩

/-- Settles O43: the entry the call pushes is the one the return reads, and SP is back where it was. -/
theorem returnResumesAfterTheCall : Obligations.ReturnResumesAfterTheCall := by
  unfold Obligations.ReturnResumesAfterTheCall
  intro s nnn notFull
  have room : s.sp ≠ 15 := fun h => notFull (congrArg Fin.val h)
  have nonempty : ((s.push (s.pc + 2)).jumpTo (zextAddr nnn)).sp ≠ 0 := sp_succ_ne_zero room
  have frame : (s.push (s.pc + 2)).drop.jumpTo (s.push (s.pc + 2)).top =
      { s with pc := (s.push (s.pc + 2)).top, stack := (s.push (s.pc + 2)).stack } := by
    rw [drop_push]; rfl
  exact ⟨_, _, exec_call nnn s room, exec_ret _ nonempty, top_push_next_toNat s, frame⟩

/-- Settles O14: `Jump` to the sum, which 16 bits hold. -/
theorem jumpPlusV0Rule : Obligations.JumpPlusV0Rule := by
  unfold Obligations.JumpPlusV0Rule
  intro nnn
  refine ⟨encodeA_toNat 0xB#4 nnn, fun s => ?_⟩
  have target : (zextAddr nnn + zextByte (s.reg 0)).toNat = nnn.toNat + (s.reg 0).toNat := by
    rw [BitVec.toNat_add, zextAddr_toNat, zextByte_toNat]
    omega
  exact ⟨_, exec_jpV0 nnn s, target, jumpTo_frame s _⟩

/-! ## Skips -/

/-- An instruction that skips on `c`: its outcome, frame and `pc`, with the condition in any equivalent spelling. -/
theorem exec_skip_effect {i : Instr} {s : State} {c d : Bool} (h : exec i s = .next (s.skipIf c)) (hcd : c = d) :
    ∃ t, exec i s = .next t ∧ t = { s with pc := t.pc } ∧ s.pcSkip t d :=
  ⟨s.skipIf c, h, skipIf_frame s c, hcd ▸ skipIf_pc_toNat s c⟩

theorem decide_eq_toNat (a b : Byte) : decide (a = b) = decide (a.toNat = b.toNat) :=
  decide_eq_decide.mpr BitVec.toNat_inj.symm

theorem decide_ne_toNat (a b : Byte) : decide (a ≠ b) = decide (a.toNat ≠ b.toNat) :=
  decide_eq_decide.mpr (not_congr BitVec.toNat_inj.symm)

/-- Settles O16: both are skips on the comparison of Vx with the immediate. -/
theorem immediateSkipRules : Obligations.ImmediateSkipRules := by
  unfold Obligations.ImmediateSkipRules
  refine ⟨fun x nn => ⟨?_, fun s => ?_⟩, fun x nn => ⟨?_, fun s => ?_⟩⟩
  · exact encodeXNN_toNat 0x3#4 x nn
  · exact exec_skip_effect (exec_seImm x nn s) (decide_eq_toNat _ _)
  · exact encodeXNN_toNat 0x4#4 x nn
  · exact exec_skip_effect (exec_sneImm x nn s) (decide_ne_toNat _ _)

/-- A word of families 5 and 9 with a low nibble that is not 0 is in no row. -/
theorem decode_lowNonzero_unknown (op : Word) (family : op.toNat / 4096 = 5 ∨ op.toNat / 4096 = 9)
    (low : op.toNat % 16 ≠ 0) : decode op = .error (.unknownOpcode op) := by
  cases h : decode op with
  | ok i => exact absurd (decode_ok_lowZero op i h family) low
  | error e => rw [decode_error h]

/-- Settles O17: both are skips on the comparison of Vx with Vy, and the decoder fixes the low nibble. -/
theorem registerSkipRules : Obligations.RegisterSkipRules := by
  unfold Obligations.RegisterSkipRules
  refine ⟨decode_lowNonzero_unknown, fun x y => ⟨?_, fun s => ?_⟩, fun x y => ⟨?_, fun s => ?_⟩⟩
  · exact encodeXY_toNat 0x5#4 x y 0x0#4
  · exact exec_skip_effect (exec_seReg x y s) (decide_eq_toNat _ _)
  · exact encodeXY_toNat 0x9#4 x y 0x0#4
  · exact exec_skip_effect (exec_sneReg x y s) (decide_ne_toNat _ _)

/-! ## The stack pointer over every instruction, and nesting (R17, R18) -/

/-- The stack pointer after any instruction. -/
theorem sp_of_exec {i : Instr} {s t : State} (h : exec i s = .next t) :
    t.sp = s.sp ∨ (t.sp.val = s.sp.val + 1 ∧ ∃ nnn, i = .call nnn) ∨ (t.sp.val + 1 = s.sp.val ∧ i = .ret) := by
  cases effect_of_exec h
  case call nnn instr room => exact .inr (.inl ⟨sp_succ_val room, nnn, instr⟩)
  case ret instr nonempty => exact .inr (.inr ⟨sp_pred_val nonempty, instr⟩)
  all_goals exact .inl rfl

/-- Settles O40: SP by kind of effect, and the two faults at the ends of its range. -/
theorem stackPointerNeverWraps : Obligations.StackPointerNeverWraps := by
  unfold Obligations.StackPointerNeverWraps
  intro i s
  obtain ⟨t, h⟩ := exec_total i s
  refine ⟨t, h, sp_of_exec h, ?_, ?_⟩
  · rintro ⟨nnn, rfl⟩ full
    rw [exec_call_overflow nnn s (Fin.ext full)] at h
    cases h
    exact ⟨rfl, rfl, rfl⟩
  · rintro rfl empty
    rw [exec_ret_underflow s (Fin.ext empty)] at h
    cases h
    exact ⟨rfl, rfl, rfl⟩

theorem nestCalls_cons {s t : State} {nnn : Addr} {rest : List Addr} (h : exec (.call nnn) s = .next t) :
    s.nestCalls (nnn :: rest) = t.nestCalls rest := by
  simp only [State.nestCalls, h]

/-- Calls that fit between SP and 15 nest. -/
theorem nestCalls_fit (s : State) (calls : List Addr) (fits : s.sp.val + calls.length ≤ 15) :
    ∃ t, s.nestCalls calls = .next t ∧ t.sp.val = s.sp.val + calls.length ∧ t.status = s.status := by
  induction calls generalizing s with
  | nil => exact ⟨s, rfl, rfl, rfl⟩
  | cons nnn rest ih =>
    rw [List.length_cons] at fits ⊢
    have room : s.sp ≠ 15 := fun full => by
      have sp : s.sp.val = 15 := congrArg Fin.val full
      omega
    have raised : ((s.push (s.pc + 2)).jumpTo (zextAddr nnn)).sp.val = s.sp.val + 1 := sp_succ_val room
    obtain ⟨t, outcome, sp, status⟩ := ih ((s.push (s.pc + 2)).jumpTo (zextAddr nnn)) (by omega)
    exact ⟨t, (nestCalls_cons (exec_call nnn s room)).trans outcome, by omega, status⟩

/-- Calls from SP to 15 and one more end in the fault. -/
theorem nestCalls_overflow (s : State) (calls : List Addr) (sixteen : s.sp.val + calls.length = 16) :
    ∃ t, s.nestCalls calls = .next t ∧ t.sp.val = 15 ∧ t.status = .halt ∧ t.cause = .stackOverflow := by
  induction calls generalizing s with
  | nil => exact absurd sixteen (by rw [List.length_nil]; omega)
  | cons nnn rest ih =>
    rw [List.length_cons] at sixteen
    by_cases full : s.sp = 15
    · have sp : s.sp.val = 15 := congrArg Fin.val full
      have last : rest = [] := List.eq_nil_of_length_eq_zero (by omega)
      subst last
      exact ⟨_, nestCalls_cons (exec_call_overflow nnn s full), sp, rfl, rfl⟩
    · have raised : ((s.push (s.pc + 2)).jumpTo (zextAddr nnn)).sp.val = s.sp.val + 1 := sp_succ_val full
      obtain ⟨t, outcome, fault⟩ := ih ((s.push (s.pc + 2)).jumpTo (zextAddr nnn)) (by omega)
      exact ⟨t, (nestCalls_cons (exec_call nnn s full)).trans outcome, fault⟩

/-- Settles O41: both clauses start from SP = 0. -/
theorem fifteenCallsNest : Obligations.FifteenCallsNest := by
  unfold Obligations.FifteenCallsNest
  intro s calls empty running
  constructor
  · intro fits
    obtain ⟨t, outcome, sp, status⟩ := nestCalls_fit s calls (by omega)
    exact ⟨t, outcome, by omega, status.trans running⟩
  · intro sixteen
    exact nestCalls_overflow s calls (by omega)

end Sys2Proof.Machine
end

section
/-! SUPPORT. The settled statements on logic, flags and the random byte (spec 42_alu.md), with the effect the flag writers share:
the result, then the flag, then `Next`. -/

namespace Sys2Proof.Machine

/-- A word of family 8: the selector and the two registers added to 0x8000 (R53, R56). -/
theorem encodeXY_family8_toNat (x y : Reg) (n : Nibble) :
    (encodeXY 0x8#4 x y n).toNat = 0x8000 + n.toNat + x.toNat * 256 + y.toNat * 16 := by
  have word : (encodeXY 0x8#4 x y n).toNat = 0x8000 + x.toNat * 256 + y.toNat * 16 + n.toNat := encodeXY_toNat 0x8#4 x y n
  omega

/-! ## Logic and the random byte -/

/-- Settles O21: each of the three is a register write of the bitwise result, then `Next`. -/
theorem logicRules : Obligations.LogicRules := by
  unfold Obligations.LogicRules
  refine ⟨fun x y => ⟨?_, fun s => ?_⟩, fun x y => ⟨?_, fun s => ?_⟩, fun x y => ⟨?_, fun s => ?_⟩⟩
  · exact encodeXY_family8_toNat x y 0x1#4
  · obtain ⟨t, outcome, frame, next, written, others⟩ := exec_registerWrite_effect (exec_orReg x y s)
    exact ⟨t, outcome, frame, next, fun j => by rw [written, BitVec.getLsbD_or], others⟩
  · exact encodeXY_family8_toNat x y 0x2#4
  · obtain ⟨t, outcome, frame, next, written, others⟩ := exec_registerWrite_effect (exec_andReg x y s)
    exact ⟨t, outcome, frame, next, fun j => by rw [written, BitVec.getLsbD_and], others⟩
  · exact encodeXY_family8_toNat x y 0x3#4
  · obtain ⟨t, outcome, frame, next, written, others⟩ := exec_registerWrite_effect (exec_xorReg x y s)
    exact ⟨t, outcome, frame, next, fun j => by rw [written, BitVec.getLsbD_xor], others⟩

/-- A `Step` on a word that decodes executes the instruction (R64). -/
theorem stepInstr_of_decode {s : State} {i : Instr} (r : Byte) (decoded : decode s.fetch = .ok i) :
    s.stepInstr r = exec i (s.beginStep r) := by
  simp only [State.stepInstr, decoded]

theorem deliver_step_of_decode {s : State} {i : Instr} (c : Config) (r : Byte) (running : s.status ≠ .halt)
    (decoded : decode s.fetch = .ok i) : s.deliver c (.step r) = exec i (s.beginStep r) :=
  (deliver_step c s r running).trans (stepInstr_of_decode r decoded)

/-- Settles O19: a register write of the step's byte AND nn, and a delivered step takes its own byte. -/
theorem randomByteRule : Obligations.RandomByteRule := by
  unfold Obligations.RandomByteRule
  refine fun x nn => ⟨encodeXNN_toNat 0xC#4 x nn, fun s => ?_, fun c s r running decoded => ?_⟩
  · obtain ⟨t, outcome, frame, next, written, others⟩ := exec_registerWrite_effect (exec_rnd x nn s)
    exact ⟨t, outcome, frame, next, fun j => by rw [written, BitVec.getLsbD_and], others⟩
  · obtain ⟨t, outcome, -, -, written, -⟩ := exec_registerWrite_effect (exec_rnd x nn (s.beginStep r))
    refine ⟨t, (deliver_step_of_decode c r running decoded).trans outcome, fun j => ?_⟩
    rw [written, BitVec.getLsbD_and, State.beginStep_rnd]

/-! ## The result, then the flag (R82) -/

/-- An instruction that writes a result to Vx, then a flag to VF, and completes with `Next`. -/
theorem exec_result_effect {i : Instr} {s : State} {x : Reg} {b : Byte} {f : Bool}
    (h : exec i s = .next (s.setResult x b f).advance) :
    ∃ t, exec i s = .next t ∧ t = { s with v := t.v, pc := t.pc } ∧ s.pcNext t ∧ (x ≠ vf → t.reg x = b) ∧
      t.reg vf = flagByte f ∧ s.othersKeptButFlag t x := by
  refine ⟨(s.setResult x b f).advance, h, rfl, advance_pc_toNat (s.setResult x b f), fun hx => ?_, ?_, fun r hr hf => ?_⟩
  · rw [reg_advance, reg_setResult, if_neg hx, if_pos rfl]
  · rw [reg_advance, reg_setResult, if_pos rfl]
  · rw [reg_advance, reg_setResult, if_neg hf, if_neg hr]

/-- The flag of a comparison. -/
theorem flagByte_decide_toNat (p : Prop) [Decidable p] : (flagByte (decide p)).toNat = if p then 1 else 0 := by
  simp only [flagByte_toNat, decide_eq_true_eq]

theorem subByte_toInt (a b : Byte) : ((subByte a b).toNat : Int) = ((a.toNat : Int) - (b.toNat : Int)) % 256 := by
  rw [subByte, BitVec.toNat_ofInt]
  omega

theorem flagByte_bitOutRight_toNat (b : Byte) : (flagByte (bitOutRight b)).toNat = b.toNat % 2 := by
  rw [bitOutRight_eq, flagByte_decide_toNat]
  split <;> omega

theorem flagByte_bitOutLeft_toNat (b : Byte) : (flagByte (bitOutLeft b)).toNat = b.toNat / 128 := by
  rw [bitOutLeft_eq, flagByte_decide_toNat]
  split <;> omega

/-- Settles O22: the sum is the result and the carry the flag. -/
theorem addWithCarryRule : Obligations.AddWithCarryRule := by
  unfold Obligations.AddWithCarryRule
  refine fun x y => ⟨encodeXY_family8_toNat x y 0x4#4, fun s => ?_⟩
  obtain ⟨t, outcome, frame, next, result, flag, others⟩ := exec_result_effect (exec_addReg x y s)
  exact ⟨t, outcome, frame, next, fun hx => by rw [result hx, addByte_toNat],
    by rw [flag]; exact flagByte_decide_toNat _, others⟩

/-- Settles O23: the difference is the result and the strict comparison the flag, in both orders. -/
theorem subtractRules : Obligations.SubtractRules := by
  unfold Obligations.SubtractRules
  refine ⟨fun x y => ⟨encodeXY_family8_toNat x y 0x5#4, fun s => ?_⟩,
    fun x y => ⟨encodeXY_family8_toNat x y 0x7#4, fun s => ?_⟩⟩
  · obtain ⟨t, outcome, frame, next, result, flag, others⟩ := exec_result_effect (exec_subReg x y s)
    exact ⟨t, outcome, frame, next, fun hx => by rw [result hx, subByte_toInt],
      by rw [flag]; exact flagByte_decide_toNat _, others⟩
  · obtain ⟨t, outcome, frame, next, result, flag, others⟩ := exec_result_effect (exec_subn x y s)
    exact ⟨t, outcome, frame, next, fun hx => by rw [result hx, subByte_toInt],
      by rw [flag]; exact flagByte_decide_toNat _, others⟩

/-- Settles O24: the shifted Vy is the result and the bit that falls out the flag. -/
theorem shiftRules : Obligations.ShiftRules := by
  unfold Obligations.ShiftRules
  refine ⟨fun x y => ⟨encodeXY_family8_toNat x y 0x6#4, fun s => ?_⟩,
    fun x y => ⟨encodeXY_family8_toNat x y 0xE#4, fun s => ?_⟩⟩
  · obtain ⟨t, outcome, frame, next, result, flag, others⟩ := exec_result_effect (exec_shr x y s)
    exact ⟨t, outcome, frame, next, fun hx => by rw [result hx, shiftRight_toNat],
      by rw [flag, flagByte_bitOutRight_toNat], others⟩
  · obtain ⟨t, outcome, frame, next, result, flag, others⟩ := exec_result_effect (exec_shl x y s)
    exact ⟨t, outcome, frame, next, fun hx => by rw [result hx, shiftLeft_toNat],
      by rw [flag, flagByte_bitOutLeft_toNat], others⟩

end Sys2Proof.Machine
end

section
/-! SUPPORT. The settled statements on the index register's sum, the BCD store and the block transfers (spec 43_index_memory.md),
with the effect the two stores share: bytes written at I, then `Next`. -/

namespace Sys2Proof.Machine

/-- Settles O26: a write of the sum to I, then `Next`. -/
theorem addToIndexRule : Obligations.AddToIndexRule := by
  unfold Obligations.AddToIndexRule
  refine fun x => ⟨encodeXNN_familyF_toNat x 0x1E#8, fun s => ?_⟩
  obtain ⟨t, outcome, frame, next, written⟩ := exec_indexWrite_effect (exec_addI x s)
  have sum : t.i.toNat = (s.i.toNat + (s.reg x).toNat) % 65536 := by
    rw [written, BitVec.toNat_add, zextByte_toNat]
  exact ⟨t, outcome, frame, next, sum⟩

/-! ## Bytes written at I, then `Next` (R40, R66) -/

/-- An instruction that stores at most 4096 bytes at I and completes with `Next`: its outcome, frame, `pc` and memory. -/
theorem exec_memoryWrite_effect {i : Instr} {s : State} {bs : List Byte}
    (h : exec i s = .next (s.writeMem (s.dataAddr 0) bs).advance) (hlen : bs.length ≤ 4096) :
    ∃ t, exec i s = .next t ∧ t = { s with mem := t.mem, pc := t.pc } ∧ s.pcNext t ∧
      (∀ (j : Nat) (hj : j < bs.length), t.readMem (s.i.toNat + j) = bs[j]) ∧
      (∀ a, (∀ j, j < bs.length → a % 4096 ≠ (s.i.toNat + j) % 4096) → t.readMem a = s.readMem a) :=
  ⟨(s.writeMem (s.dataAddr 0) bs).advance, h, rfl, advance_pc_toNat (s.writeMem (s.dataAddr 0) bs),
    fun j hj => readMem_writeMem_inside s s.i.toNat j bs hj hlen,
    fun a outside => readMem_writeMem_outside s s.i.toNat a bs fun j hj => (outside j hj).symm⟩

theorem bcdDigits_length (b : Byte) : (bcdDigits b).length = 3 := rfl

/-- Settles O27: the bytes stored are the three digits, each below 256. -/
theorem bcdRule : Obligations.BcdRule := by
  unfold Obligations.BcdRule
  refine fun x => ⟨encodeXNN_familyF_toNat x 0x33#8, fun s => ?_⟩
  have length := bcdDigits_length (s.reg x)
  obtain ⟨t, outcome, frame, next, stored, kept⟩ := exec_memoryWrite_effect (exec_ldBcd x s) (by omega)
  have byteOf : ∀ d : Nat, d < 256 → (BitVec.ofNat 8 d).toNat = d := fun d hd => by
    rw [BitVec.toNat_ofNat, Nat.mod_eq_of_lt hd]
  have hundreds : (t.readMem s.i.toNat).toNat = (s.reg x).toNat / 100 := by
    rw [← Nat.add_zero s.i.toNat, stored 0 (by omega)]
    exact byteOf _ (by omega)
  have tens : (t.readMem (s.i.toNat + 1)).toNat = (s.reg x).toNat / 10 % 10 := by
    rw [stored 1 (by omega)]
    exact byteOf _ (by omega)
  have ones : (t.readMem (s.i.toNat + 2)).toNat = (s.reg x).toNat % 10 := by
    rw [stored 2 (by omega)]
    exact byteOf _ (by omega)
  exact ⟨t, outcome, frame, next, hundreds, tens, ones, kept⟩

theorem block_getElem_reg (s : State) (x r : Reg) (h : r.toNat < (s.block x).length) :
    (s.block x)[r.toNat] = s.reg r := by
  rw [block_getElem, BitVec.ofNat_toNat, BitVec.setWidth_eq]

/-- Settles O28: the bytes stored are the registers V0 to Vx. -/
theorem blockStoreRule : Obligations.BlockStoreRule := by
  unfold Obligations.BlockStoreRule
  refine fun x => ⟨encodeXNN_familyF_toNat x 0x55#8, fun s => ?_⟩
  have length := block_length s x
  obtain ⟨t, outcome, frame, next, stored, kept⟩ := exec_memoryWrite_effect (exec_store x s) (by omega)
  refine ⟨t, outcome, frame, next, fun r hr => ?_, fun a outside => kept a fun j hj => outside j (by omega)⟩
  rw [stored r.toNat (by omega), block_getElem_reg]

theorem loadRegs_advance_frame (s : State) (ks : List Nat) : (s.loadRegs ks).advance =
    { s with v := (s.loadRegs ks).advance.v, pc := (s.loadRegs ks).advance.pc } := by
  rw [loadRegs_frame]; rfl

theorem loadRegs_advance_pcNext (s : State) (ks : List Nat) : s.pcNext (s.loadRegs ks).advance := by
  rw [loadRegs_frame]; exact advance_pc_toNat s

/-- Settles O29: a listed register is loaded from I plus its number. -/
theorem blockLoadRule : Obligations.BlockLoadRule := by
  unfold Obligations.BlockLoadRule
  refine fun x => ⟨encodeXNN_familyF_toNat x 0x65#8, fun s => ?_⟩
  have listed : ∀ k ∈ List.range (x.toNat + 1), k < 16 := fun k hk => by
    have := List.mem_range.mp hk
    omega
  refine ⟨_, exec_load x s, loadRegs_advance_frame s _, loadRegs_advance_pcNext s _, fun r hr => ?_, fun r hr => ?_⟩
  · rw [reg_advance, reg_loadRegs s _ listed r, if_pos (List.mem_range.mpr (by omega))]
  · rw [reg_advance, reg_loadRegs s _ listed r, if_neg (fun h => absurd (List.mem_range.mp h) (by omega))]

/-- Settles O44: the load reads at I, which the store left, what the store put there. -/
theorem loadRestoresWhatStoreSaved : Obligations.LoadRestoresWhatStoreSaved := by
  unfold Obligations.LoadRestoresWhatStoreSaved
  intro s x w
  obtain ⟨t, stored, frame, -, saved, -⟩ := (blockStoreRule x).2 s
  obtain ⟨u, loaded, -, -, restored, -⟩ := (blockLoadRule x).2 { t with v := w }
  have index : t.i = s.i := by rw [frame]
  refine ⟨t, u, stored, loaded, fun r hr => ?_⟩
  calc u.reg r = t.readMem (t.i.toNat + r.toNat) := restored r hr
    _ = t.readMem (s.i.toNat + r.toNat) := by rw [index]
    _ = s.reg r := saved r hr

/-- Addresses that agree modulo 4096 read the same byte (R33). -/
theorem readMem_congr {a b : Nat} (s : State) (h : a % 4096 = b % 4096) : s.readMem a = s.readMem b := by
  rw [← readMem_mod, h, readMem_mod]

/-- Settles O45: the fetch after the store reads the two bytes the store put at `pc + 2` and `pc + 3`. -/
theorem storedCodeIsFetched : Obligations.StoredCodeIsFetched := by
  unfold Obligations.StoredCodeIsFetched
  intro s x r two target
  obtain ⟨t, outcome, -, next, stored, -⟩ := (blockStoreRule x).2 s
  have pc : t.pc.toNat = (s.pc.toNat + 2) % 65536 := next
  have following : (r + 1).toNat = r.toNat + 1 := by
    have one : (1 : Reg).toNat = 1 := rfl
    rw [BitVec.toNat_add, one]
    exact Nat.mod_eq_of_lt (by omega)
  have high : t.readMem t.pc.toNat = s.reg r := by
    rw [readMem_congr t (b := s.i.toNat + r.toNat) (by omega), stored r (by omega)]
  have low : t.readMem (t.pc.toNat + 1) = s.reg (r + 1) := by
    rw [readMem_congr t (b := s.i.toNat + (r + 1).toNat) (by omega), stored (r + 1) (by omega)]
  refine ⟨t, outcome, ?_⟩
  rw [State.fetch, wordOfBytes_toNat, high, low]

end Sys2Proof.Machine
end

section
/-! SUPPORT. The settled statements on the keypad and the sound timer (spec 45_keypad_timer.md). -/

namespace Sys2Proof.Machine

/-- Settles O35: a write of Vx to the sound timer, then `Next`. -/
theorem soundTimerWriteRule : Obligations.SoundTimerWriteRule := by
  unfold Obligations.SoundTimerWriteRule
  exact fun x => ⟨encodeXNN_familyF_toNat x 0x18#8, fun s =>
    ⟨_, exec_ldSt x s, rfl, advance_pc_toNat (s.setSt (s.reg x)), rfl, rfl⟩⟩

/-! ## Key tests (R108 to R110) -/

theorem keyOf_eq {s : State} {x : Reg} {k : Key} (h : k.toNat = (s.reg x).toNat % 16) : s.keyOf x = k :=
  BitVec.eq_of_toNat_eq (by rw [keyOf_toNat, h])

theorem encodeXNN_familyE_toNat (x : Reg) (nn : Byte) :
    (encodeXNN 0xE#4 x nn).toNat = 0xE000 + nn.toNat + x.toNat * 256 := by
  have word : (encodeXNN 0xE#4 x nn).toNat = 0xE000 + x.toNat * 256 + nn.toNat := encodeXNN_toNat 0xE#4 x nn
  omega

theorem keyDown_setKey_self (s : State) (k : Key) (b : Bool) : (s.setKey k b).keyDown k = b := by
  rw [keyDown_setKey, if_pos rfl]

theorem keyDown_setKey_other (s : State) {k j : Key} (b : Bool) (h : j ≠ k) :
    (s.setKey k b).keyDown j = s.keyDown j := by
  rw [keyDown_setKey, if_neg h]

/-- What Ex9E leaves on the key it names: a skip when it was down, and the cell up. -/
theorem exec_skp_effect (x : Reg) (s : State) : ∃ t, exec (.skp x) s = .next t ∧
    t = { s with key := t.key, pc := t.pc } ∧ s.pcSkip t (s.keyDown (s.keyOf x)) ∧ t.keyDown (s.keyOf x) = false ∧
    ∀ j, j ≠ s.keyOf x → t.keyDown j = s.keyDown j := by
  cases h : s.keyDown (s.keyOf x) with
  | true =>
    exact ⟨_, exec_skp_down x s h, rfl, skipIf_pc_toNat (s.setKey (s.keyOf x) false) true,
      keyDown_setKey_self s (s.keyOf x) false, fun j hj => keyDown_setKey_other s false hj⟩
  | false => exact ⟨_, exec_skp_up x s h, rfl, skipIf_pc_toNat s false, h, fun _ _ => rfl⟩

/-- Settles O32: the key is the low nibble of Vx; Ex9E by its effect, ExA1 is a skip and nothing more. -/
theorem keySkipRules : Obligations.KeySkipRules := by
  unfold Obligations.KeySkipRules
  refine ⟨fun x => ⟨encodeXNN_familyE_toNat x 0x9E#8, fun s k hk => ?_⟩,
    fun x => ⟨encodeXNN_familyE_toNat x 0xA1#8, fun s k hk => ?_⟩⟩
  · rw [← keyOf_eq hk]
    exact exec_skp_effect x s
  · rw [← keyOf_eq hk]
    exact exec_skip_effect (exec_sknp x s) rfl

/-- Settles O47: the first Ex9E leaves the cell of its key up, and the second looks at the same cell. -/
theorem keyPressIsConsumedOnce : Obligations.KeyPressIsConsumedOnce := by
  unfold Obligations.KeyPressIsConsumedOnce
  intro s x
  obtain ⟨t, first, frame, -, up, -⟩ := exec_skp_effect x s
  have sameKey : t.keyOf x = s.keyOf x := by rw [frame]; rfl
  exact ⟨t, t.skipIf false, first, exec_skp_up x t (sameKey ▸ up), skipIf_pc_toNat t false, rfl⟩

/-! ## The key wait (R112) -/

/-- A key that is down with every lower key up is the one that is found. -/
theorem leastKeyDown_of_least {s : State} {k : Key} (down : s.keyDown k = true)
    (lower : ∀ j : Key, j.toNat < k.toNat → s.keyDown j = false) : s.leastKeyDown = some k := by
  cases h : s.leastKeyDown with
  | none => exact absurd ((leastKeyDown_eq_none s).mp h k) (by rw [down]; decide)
  | some j =>
    obtain ⟨jDown, jLower⟩ := leastKeyDown_eq_some s j h
    rcases Nat.lt_trichotomy j.toNat k.toNat with below | same | above
    · exact absurd (lower j below) (by rw [jDown]; decide)
    · rw [BitVec.eq_of_toNat_eq same]
    · exact absurd (jLower k above) (by rw [down]; decide)

/-- Settles O33: the least key down is the one found, and with none down nothing is found. -/
theorem keyWaitRule : Obligations.KeyWaitRule := by
  unfold Obligations.KeyWaitRule
  refine fun x => ⟨encodeXNN_familyF_toNat x 0x0A#8, fun s k down lower => ?_, fun s up => ?_⟩
  · have key : (((((s.setReg x (k.setWidth 8)).setKey k false).setStatus .run).advance).reg x).toNat = k.toNat := by
      rw [reg_advance, reg_setStatus, reg_setKey, reg_setReg_self, BitVec.toNat_setWidth]
      exact Nat.mod_eq_of_lt (by omega)
    exact ⟨_, exec_ldKey_some x k s (leastKeyDown_of_least down lower), rfl, advance_pc_toNat _, rfl, key,
      fun r hr => reg_setReg_other s x r _ hr, keyDown_setKey_self _ k false,
      fun j hj => keyDown_setKey_other _ false hj⟩
  · exact ⟨_, exec_ldKey_none x s ((leastKeyDown_eq_none s).mpr up), rfl, rfl⟩

end Sys2Proof.Machine
end

section
/-! SUPPORT. The settled statements on the cycle (spec 40_cycle.md): the fetch, what a `Step` answers, and what it leaves of DRAW
and the output events. -/

namespace Sys2Proof.Machine

/-! ## The fetch (R36) -/

/-- Settles O5: the high byte comes first, and both addresses are taken modulo 4096. -/
theorem fetchIsBigEndianAndWraps : Obligations.FetchIsBigEndianAndWraps := by
  unfold Obligations.FetchIsBigEndianAndWraps
  intro s
  exact wordOfBytes_toNat (s.readMem s.pc.toNat) (s.readMem (s.pc.toNat + 1))

/-! ## What a step answers (R64) -/

/-- A `Step` on a word that does not decode reports the word and skips it. -/
theorem stepInstr_of_unknown {s : State} {e : DecodeError} (r : Byte) (unknown : decode s.fetch = .error e) :
    s.stepInstr r = .next ((s.beginStep r).unknown s.fetch) := by
  simp only [State.stepInstr, unknown]

/-- The state after a `Step`: that of the decoded instruction, or that of the report. -/
theorem stepInstr_next {s t : State} {r : Byte} (h : s.stepInstr r = .next t) :
    (∃ i, decode s.fetch = .ok i ∧ exec i (s.beginStep r) = .next t) ∨
    (decode s.fetch = .error (.unknownOpcode s.fetch) ∧ t = (s.beginStep r).unknown s.fetch) := by
  obtain ⟨i, decoded, answer⟩ | ⟨e, unknown, answer⟩ := stepInstr_cases s r
  · exact .inl ⟨i, decoded, answer.symm.trans h⟩
  · rw [answer] at h
    cases h
    exact .inr ⟨by rw [unknown, decode_error unknown], rfl⟩

theorem deliver_step_next {c : Config} {s t : State} {r : Byte} (running : s.status ≠ .halt)
    (h : s.deliver c (.step r) = .next t) :
    (∃ i, decode s.fetch = .ok i ∧ exec i (s.beginStep r) = .next t) ∨
    (decode s.fetch = .error (.unknownOpcode s.fetch) ∧ t = (s.beginStep r).unknown s.fetch) :=
  stepInstr_next ((deliver_step c s r running).symm.trans h)

theorem stepInstr_total (s : State) (r : Byte) : ∃ t, s.stepInstr r = .next t := by
  obtain ⟨i, -, answer⟩ | ⟨e, -, answer⟩ := stepInstr_cases s r
  · rw [answer]; exact exec_total i (s.beginStep r)
  · exact ⟨_, answer⟩

/-- A move with no event pending, outside HALT: a step with the next free byte. -/
theorem step_of_no_input {s : State} (running : s.status ≠ .halt) (h : s.inputs = []) :
    step s = { s with rndCount := s.rndCount + 1 }.stepInstr (Config.randomByte s.rndCount) :=
  (move_nil Config.standard s h).trans (if_neg running)

/-- Settles O6: whichever way the step comes about, it is `exec` of the decoded instruction on the begun step. -/
theorem stepRunsTheDecodedInstruction : Obligations.StepRunsTheDecodedInstruction := by
  unfold Obligations.StepRunsTheDecodedInstruction
  refine ⟨fun s i running none decoded => ?_, fun s i r rest running next decoded => ?_⟩
  · exact (step_of_no_input running none).trans (stepInstr_of_decode (Config.randomByte s.rndCount) decoded)
  · have begun : step s = { s with inputs := rest }.deliver Config.standard (.step r) :=
      move_cons Config.standard s (.step r) rest next
    exact begun.trans (deliver_step_of_decode Config.standard r running decoded)

/-- Settles O7: the report changes `pc` and the output events, and the begun step DRAW and the model's two fields. -/
theorem unknownValuesAreReportedAndSkipped : Obligations.UnknownValuesAreReportedAndSkipped := by
  unfold Obligations.UnknownValuesAreReportedAndSkipped
  intro c s r running unknown
  exact ⟨_, (deliver_step c s r running).trans (stepInstr_of_unknown r unknown), advance_pc_toNat _, rfl, rfl, rfl⟩

/-! ## Events in HALT and outside it (R69) -/

theorem timerTick_halt {s : State} (h : s.status = .halt) : s.timerTick = s := if_pos h

theorem keyPress_halt {s : State} (k : Key) (h : s.status = .halt) : s.keyPress k = s := if_pos h

theorem keyRelease_halt {s : State} (k : Key) (h : s.status = .halt) : s.keyRelease k = s := if_pos h

theorem timerTick_running {s : State} (h : s.status ≠ .halt) :
    s.timerTick = { s with dt := countDown s.dt, st := countDown s.st, outputs := s.outputs ++ tickOutputs s.st } := if_neg h

theorem keyPress_running {s : State} (k : Key) (h : s.status ≠ .halt) : s.keyPress k = s.setKey k true := if_neg h

theorem keyRelease_running {s : State} (k : Key) (h : s.status ≠ .halt) : s.keyRelease k = s.setKey k false := if_neg h

theorem loadImage_after_boot {s : State} (c : Config) (image : List Byte) (h : s.loadable = false) :
    s.loadImage c image = .refused .loadAfterBoot := by
  simp [State.loadImage, h]

/-- In HALT a delivered step, tick or key event changes nothing. -/
theorem deliver_halt {s : State} (c : Config) (h : s.status = .halt) :
    (∀ r, s.deliver c (.step r) = .next s) ∧ s.deliver c .timerTick = .next s ∧
    (∀ k, s.deliver c (.keyPress k) = .next s) ∧ (∀ k, s.deliver c (.keyRelease k) = .next s) :=
  ⟨fun r => deliver_step_halt c s r h, congrArg _ (timerTick_halt h), fun k => congrArg _ (keyPress_halt k h),
    fun k => congrArg _ (keyRelease_halt k h)⟩

/-- An event after which the core is not halted, though it was, is `Reset`. -/
theorem reset_of_leaves_halt {c : Config} {s t : State} {e : Event} (h : s.status = .halt)
    (answer : s.deliver c e = .next t) (left : t.status ≠ .halt) : e = .reset := by
  obtain ⟨step, tick, press, release⟩ := deliver_halt c h
  cases e with
  | reset => rfl
  | load image =>
    obtain ⟨-, -, rfl⟩ := loadImage_next c s t image answer
    exact absurd h left
  | step r => rw [step r] at answer; cases answer; exact absurd h left
  | timerTick => rw [tick] at answer; cases answer; exact absurd h left
  | keyPress k => rw [press k] at answer; cases answer; exact absurd h left
  | keyRelease k => rw [release k] at answer; cases answer; exact absurd h left

/-- Settles O8: event by event, and the move with no event pending. -/
theorem onlyResetLeavesHalt : Obligations.OnlyResetLeavesHalt := by
  unfold Obligations.OnlyResetLeavesHalt
  intro c s h
  obtain ⟨step, tick, press, release⟩ := deliver_halt c h
  exact ⟨step, tick, press, release, fun booted image => loadImage_after_boot c image booted, ⟨_, rfl, rfl⟩,
    fun e t answer left => reset_of_leaves_halt h answer left,
    fun none => (move_nil Config.standard s none).trans (if_pos h)⟩

/-! ## DRAW (R65) and the output events (R71) -/

/-- 00E0 and Dxyn set DRAW. -/
theorem draw_of_draws {i : Instr} {s t : State} (h : exec i s = .next t) (draws : i.draws = true) : t.draw = true := by
  cases i <;> cases draws
  case cls => cases h; rfl
  case drw => cases h; rfl

theorem draw_of_exec {i : Instr} {s t : State} (h : exec i s = .next t) (clear : s.draw = false) :
    t.draw = true ↔ i.draws = true := by
  refine ⟨fun set => draws_of_draw_changed h ?_, draw_of_draws h⟩
  rw [set, clear]
  decide

/-- No event but a step or a `Reset` touches DRAW. -/
theorem draw_of_deliver {c : Config} {s t : State} {e : Event} (reset : e ≠ .reset) (step : ∀ r, e ≠ .step r)
    (h : s.deliver c e = .next t) : t.draw = s.draw := by
  cases e with
  | reset => exact absurd rfl reset
  | load image => obtain ⟨-, -, rfl⟩ := loadImage_next c s t image h; rfl
  | step r => exact absurd rfl (step r)
  | timerTick => cases h; rw [timerTick_frame]
  | keyPress k => cases h; rw [keyPress_frame]
  | keyRelease k => cases h; rw [keyRelease_frame]

/-- Settles O9: the begun step has DRAW clear, and only a drawing instruction sets it. -/
theorem drawFlagFollowsTheLastInstruction : Obligations.DrawFlagFollowsTheLastInstruction := by
  unfold Obligations.DrawFlagFollowsTheLastInstruction
  refine ⟨fun c s t r running h => ?_, fun c s t e kind h => ?_⟩
  · obtain ⟨i, decoded, executed⟩ | ⟨unknown, rfl⟩ := deliver_step_next running h
    · rw [draw_of_exec executed rfl]
      constructor
      · exact fun draws => ⟨i, decoded, draws⟩
      · rintro ⟨j, decodedJ, draws⟩
        rw [decoded] at decodedJ
        cases decodedJ
        exact draws
    · constructor
      · intro set; cases set
      · rintro ⟨j, decoded, -⟩
        rw [unknown] at decoded
        cases decoded
  · refine draw_of_deliver ?_ ?_ h
    · rintro rfl
      simp [Event.isLoad] at kind
    · rintro r rfl
      simp [Event.isLoad] at kind

/-- An instruction emits nothing, or one fatal fault. -/
theorem outputs_of_exec {i : Instr} {s t : State} (h : exec i s = .next t) :
    t.outputs = s.outputs ∨ ∃ c, t.outputs = s.outputs ++ [.fault c s.pc (encode i)] := by
  cases exec_controlEffect i s t h with
  | kept ho hs hc => exact .inl ho
  | keyWait x hi ho hs hc => exact .inl ho
  | overflow nnn hi hsp ht => exact .inr ⟨_, congrArg State.outputs ht⟩
  | underflow hi hsp ht => exact .inr ⟨_, congrArg State.outputs ht⟩

/-- Settles O10: in HALT nothing, else what the instruction emits or the report of an `Unknown` value. -/
theorem stepEmitsAtMostOneOutput : Obligations.StepEmitsAtMostOneOutput := by
  unfold Obligations.StepEmitsAtMostOneOutput
  intro c s t r h
  by_cases halted : s.status = .halt
  · rw [deliver_step_halt c s r halted] at h
    cases h
    exact .inl rfl
  · obtain ⟨i, -, executed⟩ | ⟨-, rfl⟩ := deliver_step_next halted h
    · obtain none | ⟨cause, one⟩ := outputs_of_exec executed
      · exact .inl none
      · exact .inr ⟨.fault cause s.pc (encode i), nofun, one⟩
    · exact .inr ⟨.unknownOpcode s.pc s.fetch, nofun, rfl⟩

/-! ## Moves with a successor -/

/-- Every event but a `Load` has a successor in every state. -/
theorem deliver_total (c : Config) (s : State) (e : Event) (noLoad : e.isLoad = false) :
    ∃ t, s.deliver c e = .next t := by
  cases e with
  | load image => cases noLoad
  | step r =>
    by_cases halted : s.status = .halt
    · exact ⟨s, deliver_step_halt c s r halted⟩
    · rw [deliver_step c s r halted]; exact stepInstr_total s r
  | reset => exact ⟨_, rfl⟩
  | timerTick => exact ⟨_, rfl⟩
  | keyPress k => exact ⟨_, rfl⟩
  | keyRelease k => exact ⟨_, rfl⟩

/-- Settles O11: an enabled move is a step outside HALT or the delivery of an event that is no `Load`. -/
theorem enabledMovesHaveASuccessor : Obligations.EnabledMovesHaveASuccessor := by
  unfold Obligations.EnabledMovesHaveASuccessor
  intro s enabled
  cases pending : s.inputs with
  | nil =>
    have running : s.status ≠ .halt := by simpa [State.enabled, pending] using enabled
    rw [step_of_no_input running pending]
    exact stepInstr_total _ _
  | cons e rest =>
    have noLoad : e.isLoad = false := by simpa [State.enabled, pending] using enabled
    obtain ⟨t, answer⟩ := deliver_total Config.standard { s with inputs := rest } e noLoad
    exact ⟨t, (move_cons Config.standard s e rest pending).trans answer⟩

/-! ## Fatal faults (R119) -/

/-- An instruction that enters HALT does so by raising one of its two faults, and does nothing else. -/
theorem raise_of_enters_halt {i : Instr} {s t : State} (h : exec i s = .next t) (running : s.status ≠ .halt)
    (halted : t.status = .halt) :
    ∃ c : Cause, (c.code = 2 ∨ c.code = 3) ∧ t = s.raise c (encode i) := by
  cases exec_controlEffect i s t h with
  | kept ho hs hc => exact absurd (hs.symm.trans halted) running
  | keyWait x hi ho hs hc => rw [halted] at hs; rcases hs with hs | hs <;> cases hs
  | overflow nnn hi hsp ht => exact ⟨_, .inl rfl, ht⟩
  | underflow hi hsp ht => exact ⟨_, .inr rfl, ht⟩

/-- Settles O48: the step raised a fault on the begun step, the word reported is the one fetched, and HALT keeps the state. -/
theorem fatalFaultsArePrecise : Obligations.FatalFaultsArePrecise := by
  unfold Obligations.FatalFaultsArePrecise
  intro c s t r running h halted
  obtain ⟨step, tick, press, release⟩ := deliver_halt c halted
  obtain ⟨i, decoded, executed⟩ | ⟨-, rfl⟩ := deliver_step_next running h
  · obtain ⟨cause, code, rfl⟩ := raise_of_enters_halt executed running halted
    rw [encodeInvertsDecode s.fetch i decoded] at step tick press release ⊢
    exact ⟨code, rfl, rfl, rfl, step, tick, fun k => ⟨press k, release k⟩⟩
  · exact absurd halted running

end Sys2Proof.Machine
end

section
/-! SUPPORT. The settled statements on what no instruction reads: the random byte (spec R62) and the stale stack entries (R17,
R19). -/

namespace Sys2Proof.Machine

/-! ## Neither the random byte nor the stack -/

theorem loadRegs_rnd_stack (s : State) (ks : List Nat) (r : Byte) (k : Vector Word 16) :
    { s with rnd := r, stack := k }.loadRegs ks = { s.loadRegs ks with rnd := r, stack := k } := by
  induction ks generalizing s with
  | nil => rfl
  | cons n rest ih => exact ih (s.setReg (BitVec.ofNat 4 n) (s.readMem (s.dataAddr n)))

/-- An instruction other than Cxnn, 2nnn and 00EE neither reads nor writes the random byte and the stack: it does the same whatever
they hold. -/
theorem exec_rnd_stack {i : Instr} {s t : State} (r : Byte) (k : Vector Word 16) (notRnd : ∀ x nn, i ≠ .rnd x nn)
    (notCall : ∀ nnn, i ≠ .call nnn) (notRet : i ≠ .ret) (h : exec i s = .next t) :
    exec i { s with rnd := r, stack := k } = .next { t with rnd := r, stack := k } := by
  cases i
  case rnd x nn => exact absurd rfl (notRnd x nn)
  case call nnn => exact absurd rfl (notCall nnn)
  case ret => exact absurd rfl notRet
  case skp x =>
    cases key : s.keyDown (s.keyOf x) with
    | true => rw [exec_skp_down x s key] at h; cases h; exact exec_skp_down x _ key
    | false => rw [exec_skp_up x s key] at h; cases h; exact exec_skp_up x _ key
  case ldKey x =>
    cases key : s.leastKeyDown with
    | some j => rw [exec_ldKey_some x j s key] at h; cases h; exact exec_ldKey_some x j _ key
    | none => rw [exec_ldKey_none x s key] at h; cases h; exact exec_ldKey_none x _ key
  case load x => cases h; rw [exec_load, loadRegs_rnd_stack]; rfl
  all_goals cases h; rfl

/-! ## The random byte -/

theorem exec_ret_rnd {s t : State} (r : Byte) (h : exec .ret s = .next t) :
    exec .ret { s with rnd := r } = .next { t with rnd := r } := by
  by_cases empty : s.sp = 0
  · rw [exec_ret_underflow s empty] at h; cases h; exact exec_ret_underflow _ empty
  · rw [exec_ret s empty] at h; cases h; exact exec_ret _ empty

theorem exec_call_rnd {nnn : Addr} {s t : State} (r : Byte) (h : exec (.call nnn) s = .next t) :
    exec (.call nnn) { s with rnd := r } = .next { t with rnd := r } := by
  by_cases full : s.sp = 15
  · rw [exec_call_overflow nnn s full] at h; cases h; exact exec_call_overflow nnn _ full
  · rw [exec_call nnn s full] at h; cases h; exact exec_call nnn _ full

/-- An instruction other than 2nnn leaves the stack. -/
theorem stack_of_exec {i : Instr} {s t : State} (notCall : ∀ nnn, i ≠ .call nnn) (h : exec i s = .next t) :
    t.stack = s.stack :=
  Decidable.byContradiction fun changed => (call_of_stack_changed h changed).elim notCall

/-- Settles O39: 2nnn and 00EE by their outcomes, every other instruction with the stack it had. -/
theorem onlyRndReadsTheRandomByte : Obligations.OnlyRndReadsTheRandomByte := by
  unfold Obligations.OnlyRndReadsTheRandomByte
  intro i s t r notRnd h
  by_cases ret : i = .ret
  · subst ret; exact exec_ret_rnd r h
  by_cases call : ∃ nnn, i = .call nnn
  · obtain ⟨nnn, rfl⟩ := call; exact exec_call_rnd r h
  have notCall : ∀ nnn, i ≠ .call nnn := fun nnn hi => call ⟨nnn, hi⟩
  calc exec i { s with rnd := r } = .next { t with rnd := r, stack := s.stack } :=
        exec_rnd_stack r s.stack notRnd notCall ret h
    _ = .next { t with rnd := r } := by rw [← stack_of_exec notCall h]

/-! ## The stale stack entries -/

/-- The stack `k` agrees with the stack of `s` in every entry an instruction can read: those from 1 to SP. -/
def State.liveIn (s : State) (k : Vector Word 16) : Prop :=
  ∀ j : Fin 16, 0 < j.val → j.val ≤ s.sp.val → k[j] = s.stack[j]

/-- `State.sameButStale` says that one state is the other with a stack that agrees in the live entries. -/
theorem sameButStale_iff (s s' : State) :
    s.sameButStale s' ↔ ∃ k, s' = { s with stack := k } ∧ s.liveIn k := by
  constructor
  · rintro ⟨frame, live⟩
    exact ⟨s'.stack, frame, live⟩
  · rintro ⟨k, rfl, live⟩
    exact ⟨rfl, live⟩

theorem liveIn_of_kept {s t : State} {k : Vector Word 16} (live : s.liveIn k) (sp : t.sp = s.sp)
    (stack : t.stack = s.stack) : t.liveIn k := by
  unfold State.liveIn
  rw [sp, stack]
  exact live

theorem top_of_live {s : State} {k : Vector Word 16} (live : s.liveIn k) (nonempty : s.sp ≠ 0) :
    { s with stack := k }.top = s.top :=
  live s.sp (Nat.pos_of_ne_zero fun h => nonempty (Fin.ext h)) (Nat.le_refl _)

/-- The stack with the entry a call pushes set has the live entries of the state after the call. -/
theorem liveIn_push {s : State} {k : Vector Word 16} (w : Word) (live : s.liveIn k) (room : s.sp ≠ 15) :
    (s.push w).liveIn ({ s with stack := k }.push w).stack := by
  intro j pos le
  by_cases pushed : s.sp + 1 = j
  · subst pushed
    exact (top_push { s with stack := k } w).trans (top_push s w).symm
  · have ne : (s.sp + 1).val ≠ j.val := fun h => pushed (Fin.ext h)
    have below : j.val ≤ s.sp.val := by
      have := sp_succ_val room
      have : j.val ≤ (s.sp + 1).val := le
      omega
    calc (k.set (s.sp + 1).val w (s.sp + 1).isLt)[j] = k[j] := Vector.getElem_set_ne (s.sp + 1).isLt j.isLt ne
      _ = s.stack[j] := live j pos below
      _ = (s.stack.set (s.sp + 1).val w (s.sp + 1).isLt)[j] := (Vector.getElem_set_ne (s.sp + 1).isLt j.isLt ne).symm

theorem liveIn_drop {s : State} {k : Vector Word 16} (live : s.liveIn k) (nonempty : s.sp ≠ 0) : s.drop.liveIn k := by
  intro j pos le
  have := sp_pred_val nonempty
  have : j.val ≤ (s.sp - 1).val := le
  exact live j pos (by omega)

/-- Every instruction does the same on two states that differ in stale entries, and leaves two such states. -/
theorem exec_stale {i : Instr} {s t : State} {k : Vector Word 16} (live : s.liveIn k) (h : exec i s = .next t) :
    ∃ k', exec i { s with stack := k } = .next { t with stack := k' } ∧ t.liveIn k' := by
  by_cases ret : i = .ret
  · subst ret
    by_cases empty : s.sp = 0
    · rw [exec_ret_underflow s empty] at h; cases h
      exact ⟨k, exec_ret_underflow _ empty, live⟩
    · rw [exec_ret s empty] at h; cases h
      have outcome := exec_ret { s with stack := k } empty
      rw [top_of_live live empty] at outcome
      exact ⟨k, outcome, liveIn_drop live empty⟩
  by_cases call : ∃ nnn, i = .call nnn
  · obtain ⟨nnn, rfl⟩ := call
    by_cases full : s.sp = 15
    · rw [exec_call_overflow nnn s full] at h; cases h
      exact ⟨k, exec_call_overflow nnn _ full, live⟩
    · rw [exec_call nnn s full] at h; cases h
      exact ⟨_, exec_call nnn { s with stack := k } full, liveIn_push (s.pc + 2) live full⟩
  by_cases rnd : ∃ x nn, i = .rnd x nn
  · obtain ⟨x, nn, rfl⟩ := rnd
    cases h
    exact ⟨k, rfl, live⟩
  have notCall : ∀ nnn, i ≠ .call nnn := fun nnn hi => call ⟨nnn, hi⟩
  have sp : t.sp = s.sp :=
    Decidable.byContradiction fun changed => (call_or_ret_of_sp_changed h changed).elim ret call
  obtain ⟨-, sameRnd, -⟩ := exec_environment i s t h
  refine ⟨k, ?_, liveIn_of_kept live sp (stack_of_exec notCall h)⟩
  calc exec i { s with stack := k } = .next { t with rnd := s.rnd, stack := k } :=
        exec_rnd_stack s.rnd k (fun x nn hi => rnd ⟨x, nn, hi⟩) notCall ret h
    _ = .next { t with stack := k } := by rw [← sameRnd]

theorem loadImage_of_fits {c : Config} {s : State} {image : List Byte} (loadable : s.loadable = true)
    (fits : c.imageFits image = true) : s.loadImage c image = .next (s.placeImage c image) := by
  simp [State.loadImage, loadable, fits]

theorem stepInstr_stale {s t : State} {k : Vector Word 16} {r : Byte} (live : s.liveIn k) (h : s.stepInstr r = .next t) :
    ∃ k', { s with stack := k }.stepInstr r = .next { t with stack := k' } ∧ t.liveIn k' := by
  obtain ⟨i, decoded, executed⟩ | ⟨unknown, rfl⟩ := stepInstr_next h
  · obtain ⟨k', outcome, live'⟩ := exec_stale (s := s.beginStep r) live executed
    exact ⟨k', (stepInstr_of_decode (s := { s with stack := k }) r decoded).trans outcome, live'⟩
  · exact ⟨k, stepInstr_of_unknown (s := { s with stack := k }) r unknown, live⟩

theorem timerTick_stack (s : State) (k : Vector Word 16) :
    { s with stack := k }.timerTick = { s.timerTick with stack := k } := by
  by_cases halted : s.status = .halt
  · rw [timerTick_halt halted]; exact timerTick_halt halted
  · rw [timerTick_running halted]; exact timerTick_running halted

theorem keyPress_stack (s : State) (k : Vector Word 16) (j : Key) :
    { s with stack := k }.keyPress j = { s.keyPress j with stack := k } := by
  by_cases halted : s.status = .halt
  · rw [keyPress_halt j halted]; exact keyPress_halt j halted
  · rw [keyPress_running j halted]; exact keyPress_running j halted

theorem keyRelease_stack (s : State) (k : Vector Word 16) (j : Key) :
    { s with stack := k }.keyRelease j = { s.keyRelease j with stack := k } := by
  by_cases halted : s.status = .halt
  · rw [keyRelease_halt j halted]; exact keyRelease_halt j halted
  · rw [keyRelease_running j halted]; exact keyRelease_running j halted

/-- Every event does the same on two states that differ in stale entries, and leaves two such states. -/
theorem deliver_stale {c : Config} {e : Event} {s t : State} {k : Vector Word 16} (live : s.liveIn k)
    (h : s.deliver c e = .next t) :
    ∃ k', { s with stack := k }.deliver c e = .next { t with stack := k' } ∧ t.liveIn k' := by
  cases e with
  | reset => cases h; exact ⟨_, rfl, fun _ _ _ => rfl⟩
  | load image =>
    obtain ⟨loadable, fits, rfl⟩ := loadImage_next c s t image h
    exact ⟨k, loadImage_of_fits loadable fits, live⟩
  | step r =>
    by_cases halted : s.status = .halt
    · rw [deliver_step_halt c s r halted] at h; cases h
      exact ⟨k, deliver_step_halt c { s with stack := k } r halted, live⟩
    · rw [deliver_step c s r halted] at h
      obtain ⟨k', outcome, live'⟩ := stepInstr_stale live h
      exact ⟨k', (deliver_step c { s with stack := k } r halted).trans outcome, live'⟩
  | timerTick =>
    cases h
    exact ⟨k, congrArg _ (timerTick_stack s k), liveIn_of_kept live (by rw [timerTick_frame]) (by rw [timerTick_frame])⟩
  | keyPress j =>
    cases h
    exact ⟨k, congrArg _ (keyPress_stack s k j), liveIn_of_kept live (by rw [keyPress_frame]) (by rw [keyPress_frame])⟩
  | keyRelease j =>
    cases h
    exact ⟨k, congrArg _ (keyRelease_stack s k j), liveIn_of_kept live (by rw [keyRelease_frame]) (by rw [keyRelease_frame])⟩

/-- Settles O42: a return writes no entry, and every event keeps the relation, which ties the two stacks in the live entries. -/
theorem staleStackEntriesAreUnobservable : Obligations.StaleStackEntriesAreUnobservable := by
  unfold Obligations.StaleStackEntriesAreUnobservable
  refine ⟨fun s t h => stack_of_exec (i := .ret) (fun _ => nofun) h, fun c e s s' t related h => ?_⟩
  obtain ⟨k, rfl, live⟩ := (sameButStale_iff s s').mp related
  obtain ⟨k', answer, live'⟩ := deliver_stale live h
  exact ⟨_, answer, (sameButStale_iff t _).mpr ⟨k', rfl, live'⟩⟩

end Sys2Proof.Machine
end

section
/-! SUPPORT. The settled statements on the events that are no step (spec 60_exceptions.md, 70_reset_and_hazards.md). -/

namespace Sys2Proof.Machine

/-! ## What the spec admits of a configuration (R6) -/

theorem loadAddr_of_wf {c : Config} (h : c.wf = true) : c.loadAddr = 0x200 ∨ c.loadAddr = 0x050 := by
  simp only [Config.wf, Config.loadAddrOk, Bool.and_eq_true, Bool.or_eq_true, beq_iff_eq] at h
  exact h.1.1

theorem font_length_of_wf {c : Config} (h : c.wf = true) : c.font.length = 80 := by
  simp only [Config.wf, Config.fontLengthOk, Bool.and_eq_true, beq_iff_eq] at h
  exact h.1.2

/-! ## Reset (R31, R136) -/

/-- Reset leaves the configuration's font at 0x000. -/
theorem read_ofConfig_font {c : Config} {a : Nat} (hlen : c.font.length = 80) (ha : a < 80) :
    some ((Memory.ofConfig c).read a) = c.font[a]? := by
  have inside : (Memory.ofConfig c).read (0 + a) = c.font[a] :=
    read_writeBytes_inside [] Config.fontBase a c.font (by omega) (by omega)
  rw [← Nat.zero_add a, inside, Nat.zero_add, List.getElem?_eq_getElem]

theorem resetByte_above_font {a : Nat} (ha : 80 ≤ a) : Memory.resetByte a = 0 := by
  have hlen : Config.standard.font.length ≤ a := ha
  rw [Memory.resetByte, List.getD_eq_getElem?_getD, List.getElem?_eq_none hlen, Option.getD_none]

/-- Reset leaves zero above the font. -/
theorem read_ofConfig_above {c : Config} {a : Nat} (hlen : c.font.length = 80) (ha : 80 ≤ a) (hmem : a < 4096) :
    (Memory.ofConfig c).read a = 0 := by
  have outside : (Memory.ofConfig c).read a = Memory.read [] a :=
    read_writeBytes_outside [] Config.fontBase a c.font fun j hj => by rw [Config.fontBase]; omega
  rw [outside, Memory.read, Memory.lookup, effAddr, Nat.mod_eq_of_lt hmem, resetByte_above_font ha]

/-- Settles O49: the fields of the reset state, the load address, and memory with the font and zero elsewhere. -/
theorem resetLeavesTheResetState : Obligations.ResetLeavesTheResetState := by
  unfold Obligations.ResetLeavesTheResetState
  intro c s wf
  have hlen := font_length_of_wf wf
  have registers : ∀ r, (s.resetFor c).reg r = 0 := fun r => Vector.getElem_replicate r.isLt
  have entry : (s.resetFor c).pc.toNat = c.loadAddr := by
    have := loadAddr_of_wf wf
    exact (BitVec.toNat_ofNat ..).trans (Nat.mod_eq_of_lt (by omega))
  have entries : ∀ k : Fin 16, (s.resetFor c).stack[k] = 0 := fun k => Vector.getElem_replicate k.isLt
  have keys : ∀ k, (s.resetFor c).keyDown k = false := fun k => Vector.getElem_replicate k.isLt
  exact ⟨_, rfl, registers, rfl, entry, rfl, entries, rfl, rfl, pixel_clear, keys, rfl, rfl, rfl,
    fun a ha => read_ofConfig_font hlen ha, fun a ha hmem => read_ofConfig_above hlen ha hmem, rfl, rfl, rfl, rfl, rfl⟩

/-! ## Load (R138 to R140) -/

theorem imageFits_iff (c : Config) (image : List Byte) :
    c.imageFits image = true ↔ image.length ≤ 4096 - c.loadAddr := decide_eq_true_iff

/-- Settles O50: the image is a run of bytes from `LOAD_ADDR` that ends within memory. -/
theorem loadCopiesTheImage : Obligations.LoadCopiesTheImage := by
  unfold Obligations.LoadCopiesTheImage
  intro c s image wf loadable fits
  have address := loadAddr_of_wf wf
  refine ⟨_, loadImage_of_fits loadable ((imageFits_iff c image).mpr fits), rfl, fun j hj => ?_, fun a ha apart => ?_⟩
  · exact readMem_writeMem_inside s c.loadAddr j image hj (by omega)
  · exact readMem_writeMem_outside s c.loadAddr a image fun j hj => by omega

theorem loadImage_of_too_long {c : Config} {s : State} {image : List Byte} (loadable : s.loadable = true)
    (long : 4096 - c.loadAddr < image.length) : s.loadImage c image = .fault .imageTooLarge := by
  have unfit : c.imageFits image = false := by
    rw [← Bool.not_eq_true, imageFits_iff]
    omega
  simp [State.loadImage, loadable, unfit]

theorem loadable_of_exec {i : Instr} {s t : State} (h : exec i s = .next t) : t.loadable = s.loadable :=
  (exec_environment i s t h).1

/-- A step outside HALT ends the boot. -/
theorem loadable_of_step {c : Config} {s t : State} {r : Byte} (running : s.status ≠ .halt)
    (h : s.deliver c (.step r) = .next t) : t.loadable = false := by
  obtain ⟨i, -, executed⟩ | ⟨-, rfl⟩ := deliver_step_next running h
  · exact loadable_of_exec executed
  · rfl

/-- A `Load` ends the boot. -/
theorem loadable_of_load {c : Config} {s t : State} {image : List Byte} (h : s.loadImage c image = .next t) :
    t.loadable = false := by
  obtain ⟨-, -, rfl⟩ := loadImage_next c s t image h
  rfl

/-- Once the boot is over, no event but `Reset` allows a `Load` again. -/
theorem loadable_of_deliver {c : Config} {s t : State} {e : Event} (reset : e ≠ .reset) (booted : s.loadable = false)
    (h : s.deliver c e = .next t) : t.loadable = false := by
  cases e with
  | reset => exact absurd rfl reset
  | load image => exact loadable_of_load h
  | step r =>
    by_cases halted : s.status = .halt
    · rw [deliver_step_halt c s r halted] at h
      cases h
      exact booted
    · exact loadable_of_step halted h
  | timerTick => cases h; rw [timerTick_frame]; exact booted
  | keyPress k => cases h; rw [keyPress_frame]; exact booted
  | keyRelease k => cases h; rw [keyRelease_frame]; exact booted

/-- Settles O51: the image that is too long, the two events that end the boot, and that only `Reset` begins it again. -/
theorem loadsThatHaveNoSuccessor : Obligations.LoadsThatHaveNoSuccessor := by
  unfold Obligations.LoadsThatHaveNoSuccessor
  refine ⟨fun c s image _ loadable long => loadImage_of_too_long loadable long,
    fun c s t e ends running h image => loadImage_after_boot c image ?_,
    fun c s image booted => loadImage_after_boot c image booted,
    fun c s t e reset booted h => loadable_of_deliver reset booted h⟩
  rcases ends with load | ⟨r, rfl⟩
  · cases e with
    | load image => exact loadable_of_load h
    | _ => cases load
  · exact loadable_of_step running h

/-! ## Timer ticks and key events (R125 to R129) -/

theorem tickOutputs_eq (st : Byte) : tickOutputs st = if st.toNat = 1 then [.soundTrigger] else [] := by
  by_cases h : st = 1#8
  · subst h; rfl
  · have one : st.toNat ≠ 1 := fun same => h (BitVec.eq_of_toNat_eq same)
    rw [tickOutputs, if_neg h, if_neg one]

/-- Settles O52: the tick's frame, HALT, and the counters and the trigger outside it. -/
theorem timerTickRule : Obligations.TimerTickRule := by
  unfold Obligations.TimerTickRule
  refine fun c s => ⟨s.timerTick, rfl, timerTick_frame s, timerTick_halt, fun running => ?_⟩
  rw [timerTick_running running, ← tickOutputs_eq]
  exact ⟨countDown_toNat s.dt, countDown_toNat s.st, rfl⟩

/-- Settles O53: outside HALT a key event writes its one cell. -/
theorem keyEventRules : Obligations.KeyEventRules := by
  unfold Obligations.KeyEventRules
  intro c s k running
  constructor
  · exact ⟨_, congrArg _ (keyPress_running k running), rfl, keyDown_setKey_self s k true,
      fun j hj => keyDown_setKey_other s true hj⟩
  · exact ⟨_, congrArg _ (keyRelease_running k running), rfl, keyDown_setKey_self s k false,
      fun j hj => keyDown_setKey_other s false hj⟩

end Sys2Proof.Machine
end

section
/-! SUPPORT. The settled statements on the invariant (spec R24, R25, R70): coherence status by status, what keeps it, and what it
says of a waiting core. -/

namespace Sys2Proof.Machine

/-! ## Coherence, status by status -/

theorem coherent_iff_of_run {s : State} (h : s.status = .run) :
    s.coherent = true ↔ s.mem.wf = true ∧ s.cause = .none := by
  simp [State.coherent, State.statusExplained, h]

theorem coherent_iff_of_wait {s : State} (h : s.status = .wait) :
    s.coherent = true ↔ s.mem.wf = true ∧ s.cause = .none ∧ s.loadable = false ∧
      ∃ x, decode s.fetch = .ok (.ldKey x) := by
  have explained : s.waitExplained = true ↔ ∃ x, decode s.fetch = .ok (.ldKey x) := by
    unfold State.waitExplained
    constructor
    · intro found
      split at found
      · next x decoded => exact ⟨x, decoded⟩
      · cases found
    · rintro ⟨x, decoded⟩
      rw [decoded]
  simp [State.coherent, State.statusExplained, h, explained, and_assoc]

theorem coherent_iff_of_halt {s : State} (h : s.status = .halt) :
    s.coherent = true ↔ s.mem.wf = true ∧ s.loadable = false ∧ s.haltExplained = true := by
  simp [State.coherent, State.statusExplained, h]

theorem haltExplained_of_ret {s : State} (decoded : decode s.fetch = .ok .ret) (sp : s.sp = 0)
    (cause : s.cause = .stackUnderflow) : s.haltExplained = true := by
  simp [State.haltExplained, decoded, sp, cause]

theorem haltExplained_of_call {s : State} {nnn : Addr} (decoded : decode s.fetch = .ok (.call nnn)) (sp : s.sp = 15)
    (cause : s.cause = .stackOverflow) : s.haltExplained = true := by
  simp [State.haltExplained, decoded, sp, cause]

theorem mem_wf_of_coherent {s : State} (h : s.coherent = true) : s.mem.wf = true := by
  simp only [State.coherent, Bool.and_eq_true] at h
  exact h.1

/-- Outside HALT, CAUSE is empty (R25). -/
theorem cause_of_coherent {s : State} (h : s.coherent = true) (running : s.status ≠ .halt) : s.cause = .none := by
  cases status : s.status with
  | run => exact ((coherent_iff_of_run status).mp h).2
  | wait => exact ((coherent_iff_of_wait status).mp h).2.1
  | halt => exact absurd status running

/-- A coherent state that admits a `Load` is in RUN. -/
theorem run_of_loadable {s : State} (h : s.coherent = true) (loadable : s.loadable = true) : s.status = .run := by
  cases status : s.status with
  | run => rfl
  | wait =>
    obtain ⟨-, -, booted, -⟩ := (coherent_iff_of_wait status).mp h
    rw [loadable] at booted
    cases booted
  | halt =>
    obtain ⟨-, booted, -⟩ := (coherent_iff_of_halt status).mp h
    rw [loadable] at booted
    cases booted

/-! ## Reset -/

/-- Settles O54: reset leaves canonical memory, RUN and no CAUSE. -/
theorem resetIsCoherent : Obligations.ResetIsCoherent :=
  ⟨rfl, fun c _ => (coherent_iff_of_run rfl).mpr ⟨wf_ofConfig c, rfl⟩⟩

/-! ## A step -/

theorem coherent_beginStep {s : State} (h : s.coherent = true) (r : Byte) : (s.beginStep r).coherent = true := by
  cases status : s.status with
  | run => exact (coherent_iff_of_run (s := s.beginStep r) status).mpr ((coherent_iff_of_run status).mp h)
  | wait =>
    obtain ⟨wf, cause, -, waiting⟩ := (coherent_iff_of_wait status).mp h
    exact (coherent_iff_of_wait (s := s.beginStep r) status).mpr ⟨wf, cause, rfl, waiting⟩
  | halt =>
    obtain ⟨wf, -, explained⟩ := (coherent_iff_of_halt status).mp h
    exact (coherent_iff_of_halt (s := s.beginStep r) status).mpr ⟨wf, rfl, explained⟩

section
variable {s t : State} (coherent : s.coherent = true) (running : s.status ≠ .halt) (booted : s.loadable = false)
include coherent running booted

/-- The key wait enters RUN, or WAIT with itself still at `pc`. -/
theorem coherent_of_exec_ldKey {x : Reg} (decoded : decode s.fetch = .ok (.ldKey x)) (h : exec (.ldKey x) s = .next t) :
    t.coherent = true := by
  have wf := mem_wf_of_coherent coherent
  have cause := cause_of_coherent coherent running
  cases key : s.leastKeyDown with
  | some k =>
    rw [exec_ldKey_some x k s key] at h
    cases h
    exact (coherent_iff_of_run rfl).mpr ⟨wf, cause⟩
  | none =>
    rw [exec_ldKey_none x s key] at h
    cases h
    exact (coherent_iff_of_wait rfl).mpr ⟨wf, cause, booted, x, decoded⟩

/-- The instruction at `pc` leaves a coherent state: by what it does to STATUS and CAUSE. -/
theorem coherent_of_exec {i : Instr} (decoded : decode s.fetch = .ok i) (h : exec i s = .next t) : t.coherent = true := by
  have wf := exec_wf i s t h (mem_wf_of_coherent coherent)
  have booted' : t.loadable = false := (loadable_of_exec h).trans booted
  cases exec_controlEffect i s t h with
  | kept ho hs hc =>
    have cause := hc.trans (cause_of_coherent coherent running)
    cases status : s.status with
    | run => exact (coherent_iff_of_run (hs.trans status)).mpr ⟨wf, cause⟩
    | wait =>
      obtain ⟨-, -, -, x, waiting⟩ := (coherent_iff_of_wait status).mp coherent
      rw [decoded] at waiting
      cases waiting
      exact coherent_of_exec_ldKey coherent running booted decoded h
    | halt => exact absurd status running
  | keyWait x hi ho hs hc =>
    subst hi
    exact coherent_of_exec_ldKey coherent running booted decoded h
  | overflow nnn hi hsp ht =>
    subst hi ht
    exact (coherent_iff_of_halt rfl).mpr ⟨wf, booted', haltExplained_of_call decoded hsp rfl⟩
  | underflow hi hsp ht =>
    subst hi ht
    exact (coherent_iff_of_halt rfl).mpr ⟨wf, booted', haltExplained_of_ret decoded hsp rfl⟩

end

theorem coherent_of_stepInstr {s t : State} {r : Byte} (coherent : s.coherent = true) (running : s.status ≠ .halt)
    (h : s.stepInstr r = .next t) : t.coherent = true := by
  obtain ⟨i, decoded, executed⟩ | ⟨unknown, rfl⟩ := stepInstr_next h
  · exact coherent_of_exec (coherent_beginStep coherent r) running rfl decoded executed
  · cases status : s.status with
    | run =>
      obtain ⟨wf, cause⟩ := (coherent_iff_of_run status).mp coherent
      exact (coherent_iff_of_run (s := (s.beginStep r).unknown s.fetch) status).mpr ⟨wf, cause⟩
    | wait =>
      obtain ⟨-, -, -, x, waiting⟩ := (coherent_iff_of_wait status).mp coherent
      rw [unknown] at waiting
      cases waiting
    | halt => exact absurd status running

/-! ## An event and a move -/

theorem coherent_of_deliver {c : Config} {s t : State} {e : Event} (coherent : s.coherent = true)
    (h : s.deliver c e = .next t) : t.coherent = true := by
  cases e with
  | reset => cases h; exact resetIsCoherent.2 c s
  | load image =>
    obtain ⟨loadable, -, rfl⟩ := loadImage_next c s t image h
    have status := run_of_loadable coherent loadable
    obtain ⟨wf, cause⟩ := (coherent_iff_of_run status).mp coherent
    exact (coherent_iff_of_run (s := s.placeImage c image) status).mpr ⟨wf_writeBytes _ _ _ wf, cause⟩
  | step r =>
    by_cases halted : s.status = .halt
    · rw [deliver_step_halt c s r halted] at h
      cases h
      exact coherent
    · rw [deliver_step c s r halted] at h
      exact coherent_of_stepInstr coherent halted h
  | timerTick =>
    cases h
    rw [timerTick_frame]
    exact coherent
  | keyPress k =>
    cases h
    rw [keyPress_frame]
    exact coherent
  | keyRelease k =>
    cases h
    rw [keyRelease_frame]
    exact coherent

/-- A move is the delivery of an event or a step, from a state that differs in the environment's fields only. -/
theorem coherent_of_move {c : Config} {s t : State} (coherent : s.coherent = true) (h : s.move c = .next t) :
    t.coherent = true := by
  cases pending : s.inputs with
  | cons e rest =>
    rw [move_cons c s e rest pending] at h
    exact coherent_of_deliver (s := { s with inputs := rest }) coherent h
  | nil =>
    rw [move_nil c s pending, State.freeStep] at h
    split at h
    · cases h
    · next running => exact coherent_of_stepInstr (s := { s with rndCount := s.rndCount + 1 }) coherent running h

/-- Settles O55: a step is a move with the default configuration. -/
theorem stepKeepsCoherence : Obligations.StepKeepsCoherence :=
  fun _ _ coherent h => coherent_of_move coherent h

/-! ## WAIT (R70, R135) -/

theorem running_of_wait {s : State} (h : s.status = .wait) : s.status ≠ .halt := by
  rw [h]; decide

/-- A coherent core in WAIT stands at an Fx0A. -/
theorem ldKey_of_wait {s : State} (coherent : s.coherent = true) (waiting : s.status = .wait) :
    ∃ x, decode s.fetch = .ok (.ldKey x) := by
  obtain ⟨-, -, -, decoded⟩ := (coherent_iff_of_wait waiting).mp coherent
  exact decoded

/-- Settles O56: the step executes the Fx0A at `pc`; outside HALT ticks and keys do not look at STATUS. -/
theorem waitingStepsRunTheKeyWait : Obligations.WaitingStepsRunTheKeyWait := by
  unfold Obligations.WaitingStepsRunTheKeyWait
  intro c s coherent waiting
  have running := running_of_wait waiting
  have asRun : { s with status := .run }.status ≠ .halt := nofun
  obtain ⟨x, decoded⟩ := ldKey_of_wait coherent waiting
  refine ⟨⟨x, decoded, fun r => deliver_step_of_decode c r running decoded⟩, ⟨_, _, rfl, rfl, ?_⟩,
    fun k => ⟨_, _, rfl, rfl, ?_⟩, fun k => ⟨_, _, rfl, rfl, ?_⟩⟩
  · rw [timerTick_running running, timerTick_running asRun, ← waiting]
  · rw [keyPress_running k running, keyPress_running k asRun, ← waiting]; rfl
  · rw [keyRelease_running k running, keyRelease_running k asRun, ← waiting]; rfl

/-- With a key down, the key wait completes. -/
theorem exec_ldKey_of_down {s : State} (x : Reg) {k : Key} (down : s.keyDown k = true) :
    ∃ t, exec (.ldKey x) s = .next t ∧ t.status = .run ∧ s.pcNext t := by
  cases key : s.leastKeyDown with
  | some j => exact ⟨_, exec_ldKey_some x j s key, rfl, advance_pc_toNat _⟩
  | none => exact absurd ((leastKeyDown_eq_none s).mp key k) (by rw [down]; decide)

/-- A press taken back leaves the keys it found up. -/
theorem keyDown_release_press {s : State} (up : ∀ j, s.keyDown j = false) (k j : Key) :
    ((s.setKey k true).setKey k false).keyDown j = false := by
  by_cases h : j = k
  · rw [h, keyDown_setKey_self]
  · rw [keyDown_setKey_other _ false h, keyDown_setKey_other _ true h, up]

/-- Settles O57: after the press the Fx0A at `pc` finds a key; after the release it finds none again. -/
theorem pressEndsTheWait : Obligations.PressEndsTheWait := by
  unfold Obligations.PressEndsTheWait
  refine ⟨fun c s k r coherent waiting => ?_, fun c s k r coherent waiting up => ?_⟩
  · have running := running_of_wait waiting
    obtain ⟨x, decoded⟩ := ldKey_of_wait coherent waiting
    obtain ⟨u, executed, status, next⟩ :=
      exec_ldKey_of_down (s := (s.setKey k true).beginStep r) x (keyDown_setKey_self s k true)
    exact ⟨_, u, congrArg _ (keyPress_running k running),
      (deliver_step_of_decode (s := s.setKey k true) c r running decoded).trans executed, status, next⟩
  · have running := running_of_wait waiting
    obtain ⟨x, decoded⟩ := ldKey_of_wait coherent waiting
    have none : (((s.setKey k true).setKey k false).beginStep r).leastKeyDown = none :=
      (leastKeyDown_eq_none _).mpr (keyDown_release_press up k)
    exact ⟨_, _, _, congrArg _ (keyPress_running k running),
      congrArg _ (keyRelease_running (s := s.setKey k true) k running),
      (deliver_step_of_decode (s := (s.setKey k true).setKey k false) c r running decoded).trans
        (exec_ldKey_none x _ none), rfl, rfl⟩

end Sys2Proof.Machine
end

section
/-! SUPPORT. The settled statements on the sprite unit (spec 44_display.md): the pixels and the collisions of a row, then of a
sprite, then of Dxyn. -/

namespace Sys2Proof.Machine

/-- Whether a sprite row with its left edge at column `c0` has a 1 bit for column `c` (R104). -/
def rowBit (c0 : Nat) (row : Byte) (c : Nat) : Bool := decide (c0 ≤ c ∧ c < c0 + 8) && row.getLsbD (7 - (c - c0))

/-- Whether the sprite rows from row `r0` down have a 1 bit for the pixel at row `r`, column `c`; a row past the last is 0. -/
def rowsBit (r0 c0 : Nat) (rows : List Byte) (r c : Nat) : Bool :=
  decide (r0 ≤ r) && rowBit c0 (rows.getD (r - r0) 0) c

/-! ## The two predicates -/

theorem rowBit_zero (c0 c : Nat) : rowBit c0 0 c = false := by
  simp [rowBit]

theorem rowsBit_nil (r0 c0 r c : Nat) : rowsBit r0 c0 [] r c = false := by
  rw [rowsBit, List.getD_nil, rowBit_zero, Bool.and_false]

theorem le_of_rowsBit {r0 c0 : Nat} {rows : List Byte} {r c : Nat} (h : rowsBit r0 c0 rows r c = true) : r0 ≤ r := by
  rw [rowsBit, Bool.and_eq_true, decide_eq_true_eq] at h
  exact h.1

/-- The first row is at `r0`, the others below it. -/
theorem rowsBit_cons (r0 c0 : Nat) (row : Byte) (rows : List Byte) (r c : Nat) :
    rowsBit r0 c0 (row :: rows) r c = if r0 = r then rowBit c0 row c else rowsBit (r0 + 1) c0 rows r c := by
  unfold rowsBit
  rcases Nat.lt_trichotomy r0 r with below | same | above
  · have shift : r - r0 = (r - (r0 + 1)) + 1 := by omega
    simp [shift, Nat.ne_of_lt below, Nat.le_of_lt below, Nat.succ_le_of_lt below]
  · simp [same]
  · simp [Nat.ne_of_gt above, Nat.not_le_of_gt above, show ¬ r0 + 1 ≤ r by omega]

/-- A 1 bit of the rows is one of the first row or one of the rows below it. -/
theorem exists_rowsBit_cons (r0 c0 : Nat) (row : Byte) (rows : List Byte) (on : Nat → Nat → Prop) :
    (∃ r c, rowsBit r0 c0 (row :: rows) r c = true ∧ on r c) ↔
      (∃ c, rowBit c0 row c = true ∧ on r0 c) ∨ ∃ r c, rowsBit (r0 + 1) c0 rows r c = true ∧ on r c := by
  constructor
  · rintro ⟨r, c, bit, h⟩
    rw [rowsBit_cons] at bit
    split at bit
    · next first => exact .inl ⟨c, bit, first ▸ h⟩
    · exact .inr ⟨r, c, bit, h⟩
  · rintro (⟨c, bit, h⟩ | ⟨r, c, bit, h⟩)
    · exact ⟨r0, c, by rwa [rowsBit_cons, if_pos rfl], h⟩
    · exact ⟨r, c, by rwa [rowsBit_cons, if_neg (Nat.ne_of_lt (le_of_rowsBit bit))], h⟩

/-- The sprite bit the statements name is the bit of the rows at I. -/
theorem spriteBit_eq (s : State) (x y : Reg) (n : Nibble) (r c : Nat) :
    s.spriteBit x y n r c =
      rowsBit ((s.reg y).toNat % 32) ((s.reg x).toNat % 64) (s.spriteBytes n) r c := by
  dsimp only [State.spriteBit, rowsBit, rowBit]
  generalize (s.reg y).toNat % 32 = r0
  generalize (s.reg x).toNat % 64 = c0
  by_cases inside : r - r0 < n.toNat
  · have row : (s.spriteBytes n).getD (r - r0) 0 = s.readMem (s.i.toNat + (r - r0)) := by
      rw [List.getD_eq_getElem?_getD, List.getElem?_eq_getElem (by rwa [spriteBytes_length]), Option.getD_some,
        spriteBytes_getElem]
    have bounds : (r0 ≤ r ∧ r < r0 + n.toNat ∧ c0 ≤ c ∧ c < c0 + 8) ↔ (r0 ≤ r ∧ c0 ≤ c ∧ c < c0 + 8) := by omega
    rw [row, ← Bool.and_assoc, ← Bool.decide_and, decide_eq_decide.mpr bounds]
  · have row : (s.spriteBytes n).getD (r - r0) 0 = 0 := by
      rw [List.getD_eq_getElem?_getD, List.getElem?_eq_none (by rw [spriteBytes_length]; omega), Option.getD_none]
    have outside : ¬(r0 ≤ r ∧ r < r0 + n.toNat ∧ c0 ≤ c ∧ c < c0 + 8) := by omega
    rw [row, decide_eq_false outside, BitVec.ofNat_eq_ofNat, BitVec.getLsbD_zero, Bool.and_false, Bool.and_false,
      Bool.false_and]

/-! ## One bit -/

/-- A pixel that is on is on the screen. -/
theorem onScreen_of_pixel {fb : Framebuffer} {r c : Nat} (h : Framebuffer.pixel fb r c = true) : r < 32 ∧ c < 64 := by
  unfold Framebuffer.pixel at h
  split at h
  · assumption
  · cases h

/-- A sprite bit leaves every other pixel, on the screen or off it. -/
theorem pixel_drawBit_other (p : Canvas) {r c r' c' : Nat} (bit : Bool) (other : ¬(r = r' ∧ c = c')) :
    Framebuffer.pixel (p.drawBit r c bit).fb r' c' = Framebuffer.pixel p.fb r' c' := by
  by_cases screen : r' < 32 ∧ c' < 64
  · rw [pixel_drawBit p r c r' c' bit screen.1 screen.2, decide_eq_false other, Bool.and_false, Bool.xor_false]
  · simp [Framebuffer.pixel, screen]

/-! ## One row -/

theorem pixel_drawRow (p : Canvas) (r c0 : Nat) (row : Byte) (bs : List Nat) (nodup : bs.Nodup) {r' c' : Nat}
    (hr : r' < 32) (hc : c' < 64) :
    Framebuffer.pixel (p.drawRow r c0 row bs).fb r' c' =
      (Framebuffer.pixel p.fb r' c' ^^
        (decide (r = r' ∧ c0 ≤ c' ∧ c' - c0 ∈ bs) && row.getLsbD (7 - (c' - c0)))) := by
  induction bs generalizing p with
  | nil => simp [Canvas.drawRow]
  | cons b rest ih =>
    obtain ⟨fresh, nodup⟩ := List.nodup_cons.mp nodup
    rw [Canvas.drawRow, ih _ nodup]
    by_cases here : r = r' ∧ c0 + b = c'
    · obtain ⟨rfl, rfl⟩ := here
      rw [pixel_drawBit p r (c0 + b) r (c0 + b) _ hr hc]
      simp [fresh]
    · rw [pixel_drawBit_other p _ here]
      congr 3
      simp only [List.mem_cons, eq_iff_iff]
      constructor
      · exact fun ⟨h1, h2, h3⟩ => ⟨h1, h2, .inr h3⟩
      · rintro ⟨h1, h2, h3 | h3⟩
        · exact absurd ⟨h1, by omega⟩ here
        · exact ⟨h1, h2, h3⟩

theorem hit_drawRow (p : Canvas) (r c0 : Nat) (row : Byte) (bs : List Nat) (nodup : bs.Nodup) :
    (p.drawRow r c0 row bs).hit = true ↔
      p.hit = true ∨ ∃ b ∈ bs, row.getLsbD (7 - b) = true ∧ Framebuffer.pixel p.fb r (c0 + b) = true := by
  induction bs generalizing p with
  | nil => simp [Canvas.drawRow]
  | cons b rest ih =>
    obtain ⟨fresh, nodup⟩ := List.nodup_cons.mp nodup
    have untouched : ∀ j ∈ rest, Framebuffer.pixel (p.drawBit r (c0 + b) (row.getLsbD (7 - b))).fb r (c0 + j) =
        Framebuffer.pixel p.fb r (c0 + j) := fun j hj =>
      pixel_drawBit_other p _ fun ⟨_, same⟩ => fresh (Nat.add_left_cancel same ▸ hj)
    rw [Canvas.drawRow, ih _ nodup, hit_drawBit]
    have later : (∃ j ∈ rest, row.getLsbD (7 - j) = true ∧
          Framebuffer.pixel (p.drawBit r (c0 + b) (row.getLsbD (7 - b))).fb r (c0 + j) = true) ↔
        ∃ j ∈ rest, row.getLsbD (7 - j) = true ∧ Framebuffer.pixel p.fb r (c0 + j) = true :=
      exists_congr fun j => and_congr_right fun hj => by rw [untouched j hj]
    rw [later]
    simp only [Bool.or_eq_true, Bool.and_eq_true, List.mem_cons, exists_eq_or_imp, or_assoc]

/-- A whole row flips the pixels of its 1 bits. -/
theorem pixel_drawRow_whole (p : Canvas) (r c0 : Nat) (row : Byte) {r' c' : Nat} (hr : r' < 32) (hc : c' < 64) :
    Framebuffer.pixel (p.drawRow r c0 row (List.range 8)).fb r' c' =
      (Framebuffer.pixel p.fb r' c' ^^ (decide (r = r') && rowBit c0 row c')) := by
  rw [pixel_drawRow p r c0 row _ List.nodup_range hr hc, rowBit, ← Bool.and_assoc, ← Bool.decide_and]
  congr 3
  simp only [List.mem_range, eq_iff_iff]
  omega

/-- A whole row collides where a 1 bit meets a pixel that is on. -/
theorem hit_drawRow_whole (p : Canvas) (r c0 : Nat) (row : Byte) :
    (p.drawRow r c0 row (List.range 8)).hit = true ↔
      p.hit = true ∨ ∃ c, rowBit c0 row c = true ∧ Framebuffer.pixel p.fb r c = true := by
  rw [hit_drawRow p r c0 row _ List.nodup_range]
  refine or_congr_right ⟨?_, ?_⟩
  · rintro ⟨b, inRow, bit, on⟩
    have := List.mem_range.mp inRow
    refine ⟨c0 + b, ?_, on⟩
    simp [rowBit, bit, this]
  · rintro ⟨c, bit, on⟩
    simp only [rowBit, Bool.and_eq_true, decide_eq_true_eq] at bit
    obtain ⟨⟨left, right⟩, bit⟩ := bit
    exact ⟨c - c0, List.mem_range.mpr (by omega), bit, by rwa [Nat.add_sub_cancel' left]⟩

/-! ## The rows of a sprite -/

theorem pixel_drawRow_other (p : Canvas) {r r' : Nat} (c0 : Nat) (row : Byte) (c' : Nat) (other : r ≠ r') :
    Framebuffer.pixel (p.drawRow r c0 row (List.range 8)).fb r' c' = Framebuffer.pixel p.fb r' c' := by
  by_cases screen : r' < 32 ∧ c' < 64
  · rw [pixel_drawRow_whole p r c0 row screen.1 screen.2, decide_eq_false other, Bool.false_and, Bool.xor_false]
  · simp [Framebuffer.pixel, screen]

theorem pixel_drawRows (p : Canvas) (r c0 : Nat) (rows : List Byte) {r' c' : Nat} (hr : r' < 32) (hc : c' < 64) :
    Framebuffer.pixel (p.drawRows r c0 rows).fb r' c' =
      (Framebuffer.pixel p.fb r' c' ^^ rowsBit r c0 rows r' c') := by
  induction rows generalizing p r with
  | nil => rw [Canvas.drawRows, rowsBit_nil, Bool.xor_false]
  | cons row rest ih =>
    rw [Canvas.drawRows, ih, pixel_drawRow_whole p r c0 row hr hc, rowsBit_cons]
    by_cases first : r = r'
    · have below : rowsBit (r + 1) c0 rest r' c' = false := by
        rw [← Bool.not_eq_true]
        exact fun bit => absurd (le_of_rowsBit bit) (by omega)
      rw [below, if_pos first, decide_eq_true first, Bool.true_and, Bool.xor_false]
    · rw [if_neg first, decide_eq_false first, Bool.false_and, Bool.xor_false]

theorem hit_drawRows (p : Canvas) (r c0 : Nat) (rows : List Byte) :
    (p.drawRows r c0 rows).hit = true ↔
      p.hit = true ∨ ∃ r' c', rowsBit r c0 rows r' c' = true ∧ Framebuffer.pixel p.fb r' c' = true := by
  induction rows generalizing p r with
  | nil => simp [Canvas.drawRows, rowsBit_nil]
  | cons row rest ih =>
    have below : (∃ r' c', rowsBit (r + 1) c0 rest r' c' = true ∧
          Framebuffer.pixel (p.drawRow r c0 row (List.range 8)).fb r' c' = true) ↔
        ∃ r' c', rowsBit (r + 1) c0 rest r' c' = true ∧ Framebuffer.pixel p.fb r' c' = true :=
      exists_congr fun r' => exists_congr fun c' => and_congr_right fun bit => by
        rw [pixel_drawRow_other p c0 row c' (Nat.ne_of_lt (le_of_rowsBit bit))]
    rw [Canvas.drawRows, ih, hit_drawRow_whole, below, or_assoc,
      ← exists_rowsBit_cons r c0 row rest fun r' c' => Framebuffer.pixel p.fb r' c' = true]

/-! ## The draw of Dxyn -/

/-- Every pixel of the screen is XORed with its sprite bit (R106). -/
theorem pixel_sprite (s : State) (x y : Reg) (n : Nibble) {r c : Nat} (hr : r < 32) (hc : c < 64) :
    Framebuffer.pixel (s.sprite x y n).fb r c = (Framebuffer.pixel s.fb r c ^^ s.spriteBit x y n r c) := by
  rw [spriteBit_eq]
  exact pixel_drawRows ⟨s.fb, false⟩ _ _ (s.spriteBytes n) hr hc

/-- The draw collides when a sprite bit 1 meets a pixel that is on. -/
theorem hit_sprite (s : State) (x y : Reg) (n : Nibble) :
    (s.sprite x y n).hit = true ↔
      ∃ r c, r < 32 ∧ c < 64 ∧ s.spriteBit x y n r c = true ∧ Framebuffer.pixel s.fb r c = true := by
  have collisions := hit_drawRows ⟨s.fb, false⟩ ((s.reg y).toNat % 32) ((s.reg x).toNat % 64) (s.spriteBytes n)
  refine collisions.trans ⟨?_, ?_⟩
  · rintro (start | ⟨r, c, bit, on⟩)
    · cases start
    · exact ⟨r, c, (onScreen_of_pixel on).1, (onScreen_of_pixel on).2, by rwa [spriteBit_eq], on⟩
  · rintro ⟨r, c, -, -, bit, on⟩
    exact .inr ⟨r, c, by rwa [← spriteBit_eq], on⟩

theorem flagByte_eq_one_iff (f : Bool) : flagByte f = 1 ↔ f = true := by
  cases f <;> decide

theorem flagByte_one_or_zero (f : Bool) : flagByte f = 1 ∨ flagByte f = 0 := by
  cases f <;> decide

/-- Settles O31: the framebuffer is the drawn one and VF the collision, written after it. -/
theorem drawRule : Obligations.DrawRule := by
  unfold Obligations.DrawRule
  refine fun x y n => ⟨encodeXY_toNat 0xD#4 x y n, fun s => ?_⟩
  have flag : ((s.display (s.sprite x y n).fb).setReg vf (flagByte (s.sprite x y n).hit)).reg vf =
      flagByte (s.sprite x y n).hit := reg_setReg_self _ vf _
  refine ⟨_, exec_drw x y n s, rfl, advance_pc_toNat _, rfl, fun r c hr hc => pixel_sprite s x y n hr hc, ?_, ?_,
    fun r hr => reg_setReg_other _ vf r _ hr⟩
  · rw [reg_advance, flag]
    exact flagByte_one_or_zero _
  · rw [reg_advance, flag, flagByte_eq_one_iff]
    exact hit_sprite s x y n

/-- A sprite bit rests on the registers, I and memory. -/
theorem spriteBit_congr {s t : State} (hv : t.v = s.v) (hi : t.i = s.i) (hm : t.mem = s.mem) (x y : Reg) (n : Nibble)
    (r c : Nat) : t.spriteBit x y n r c = s.spriteBit x y n r c := by
  simp only [State.spriteBit, reg_eq_of_v s t hv, hi, readMem_eq_of_mem s t hm]

/-- Settles O46: the second draw XORs the same bits, and collides where the first one set a pixel. -/
theorem drawingTwiceRestoresTheScreen : Obligations.DrawingTwiceRestoresTheScreen := by
  unfold Obligations.DrawingTwiceRestoresTheScreen
  intro s x y n
  obtain ⟨t, first, frame, -, -, drawn, -, -, -⟩ := (drawRule x y n).2 s
  obtain ⟨u, second, -, -, -, redrawn, -, flag, -⟩ := (drawRule x y n).2 { t with v := s.v }
  have index : t.i = s.i := by rw [frame]
  have memory : t.mem = s.mem := by rw [frame]
  have sameBit : ∀ r c, { t with v := s.v }.spriteBit x y n r c = s.spriteBit x y n r c := fun r c =>
    spriteBit_congr (s := s) (t := { t with v := s.v }) rfl index memory x y n r c
  refine ⟨t, u, first, second, framebuffer_ext _ _ fun r c hr hc => ?_, flag.trans ?_⟩
  · rw [redrawn r c hr hc, sameBit, drawn r c hr hc, Bool.xor_assoc, Bool.xor_self, Bool.xor_false]
  · refine exists_congr fun r => exists_congr fun c => and_congr_right fun hr => and_congr_right fun hc => ?_
    rw [sameBit, drawn r c hr hc]
    refine and_congr_right fun bit => ?_
    rw [bit, Bool.xor_true, Bool.not_eq_true']

end Sys2Proof.Machine
end
